-- ==== Sys2Proof/Word.lean ====
section
/-! DEFINITION. The word types of the hardware: the 32-bit address and carrier (00 R6) and the byte. -/

namespace Sys2Proof

/-- A 32-bit physical or CPU address, a masked offset, or the 32-bit carrier of an access (00 R6, 20 R69). -/
abbrev Word := BitVec 32

/-- A byte of RAM, of the BIOS image, of a stream, or of the peripheral channel. -/
abbrev Byte := BitVec 8

end Sys2Proof
end

