-- ==== Sys2Proof/Config.lean ====
section
/-! DEFINITION. What an implementation of the hardware fixes (00 R5, R7), and the free values: constants without a body.
The default values and the constraints of 00 R8 are in Machine/Params.lean. -/

namespace Sys2Proof

/-- A pointer position, the answer of `PointerPosition()` (00 R13). -/
structure Position where
  x : Int
  y : Int
  deriving DecidableEq, Repr, Inhabited

/-- One region's window: `X_BASE`, `X_WINDOW`, `X_MASK` (00 R5). -/
structure Window where
  base : Word
  size : Nat
  mask : Word
  deriving DecidableEq, Repr

/-- `BIOS_WRITE_POLICY` (00 R7, 40 R116). -/
inductive BiosWritePolicy where
  | store
  | ignore
  deriving DecidableEq, Repr

/-- `DEVICE_TYPE`: a symbolic constant, the one member of the controller types that is this hardware (47 R236). -/
inductive DeviceType where
  | pointingDevice
  deriving DecidableEq, Repr

/-- Every parameter of 00 R5 and R7. A button identity is its code `0 .. BUTTON_COUNT - 1` (30 R81). -/
structure Config where
  ram : Window
  bios : Window
  exp2 : Window
  spu : Window
  dma : Window
  /-- `RAM_SIZE` in bytes. -/
  ramSize : Nat
  /-- `BIOS_SIZE` in bytes. -/
  biosSize : Nat
  /-- `EXP2_STATUS_VALUE`. -/
  exp2StatusValue : Word
  /-- `BIOS_PATCHES`: (byte offset into the image, 32-bit value). -/
  biosPatches : List (Nat × Word)
  /-- `BIOS_WRITE_POLICY`. -/
  biosWritePolicy : BiosWritePolicy
  /-- `TTY_FLUSH_EMPTY`. -/
  ttyFlushEmpty : Bool
  /-- `TTY_BUF_CAP`; `none` is unbounded. -/
  ttyBufCap : Option Nat
  /-- `BUTTON_COUNT`. -/
  buttonCount : Nat
  /-- `BUTTON_BIT`: entry `i` is the bit of identity `i`. -/
  buttonBit : List Nat
  /-- `BUTTON_CODE`: entry `c` is the identity of integer code `c`. -/
  buttonCode : List Nat
  /-- `BUTTON_STATE_INIT`. -/
  buttonStateInit : BitVec 16
  /-- `DELTA_INIT`, as its two's-complement byte. -/
  deltaInit : BitVec 8
  /-- `DEVICE_TYPE`. -/
  deviceType : DeviceType
  /-- `POS_BITS`. -/
  posBits : Nat
  deriving DecidableEq, Repr

/-- FREE VALUE (log 3, log 4). The byte at an offset of unspecified buffer contents number `draw` (10 R28, R29; 45 R192). -/
opaque Config.unspecifiedByte (draw offset : Nat) : Byte

/-- FREE VALUE (log 5). The answer of the one `PointerPosition()` call made during construction of block PERIPH (70 R301). -/
opaque Config.constructionPointer : Position

/-- FREE VALUE (log 10). The pointer answer that `withFetchWord` places with a peripheral command. -/
opaque Config.pointerAnswer : Position

/-- FREE VALUE (log 10). The DMA collaborator's answer that `withFetchWord` places with a bus transaction at an offset. -/
opaque Config.dmaAnswer (offset : Word) : Word

end Sys2Proof
end

