-- ==== Sys2Proof/Machine/Params.lean ====
section
/-! DEFINITION. The constants the source fixes (00 R6), the default parameters (00 R5, R7), the membership and offset of a
window (20 R50, 30 R92), and the constraints every parameter choice must meet (00 R8). -/

namespace Sys2Proof

/-! Constants of 00 R6. -/

/-- `EXP2_STATUS_OFFSET`. -/
def exp2StatusOffset : Word := 0x21
/-- `EXP2_TTY_OFFSET`. -/
def exp2TtyOffset : Word := 0x23
/-- `EXP2_POST_OFFSET`. -/
def exp2PostOffset : Word := 0x41
/-- `SPU_FIFO_OFFSET`. -/
def spuFifoOffset : Word := 0x1A8
/-- `SPU_CTRL_OFFSET`. -/
def spuCtrlOffset : Word := 0x1AA
/-- `SPU_STAT_OFFSET`. -/
def spuStatOffset : Word := 0x1AE
/-- `INVALID_READ_VALUE`. -/
def invalidReadValue : Word := 0xFFFFFFFF
/-- `TTY_CR`. -/
def ttyCr : Byte := 0x0D
/-- `TTY_LF`. -/
def ttyLf : Byte := 0x0A
/-- `DEVICE_ID`. -/
def deviceId : BitVec 16 := 0x5A12
/-- `CMD_SELECT`. -/
def cmdSelect : Byte := 0x01
/-- `CMD_POLL`. -/
def cmdPoll : Byte := 0x42
/-- `IDLE_OUT`. -/
def idleOut : Byte := 0xFF
/-- `DELTA_MIN`. -/
def deltaMin : Int := -128
/-- `DELTA_MAX`. -/
def deltaMax : Int := 127
/-- `VIBRATION_MOTOR_COUNT`. -/
def vibrationMotorCount : Nat := 0
/-- The count of BIOS patches. -/
def biosPatchCount : Nat := 2

/-- 20 R50: `X_BASE <= a < X_BASE + X_WINDOW`, unsigned, the sum a mathematical integer (30 R88). -/
def Window.contains (w : Window) (a : Word) : Bool :=
  decide (w.base.toNat ≤ a.toNat) && decide (a.toNat < w.base.toNat + w.size)

/-- 30 R92: `(a - X_BASE) AND X_MASK`, modulo 2^32 (20 R69). -/
def Window.offsetOf (w : Window) (a : Word) : Word := (a - w.base) &&& w.mask

/-- The parameters' defaults (00 R5, R7). PRESUMED, log 1: the window map, `EXP2_STATUS_VALUE`, `BIOS_PATCHES` and the button
table are the spec's general knowledge of the emulated console. DESIGN CHOICE, log 2: the rest are the spec's decisions. -/
def Config.default : Config where
  ram := ⟨0x00000000, 0x00800000, 0x001FFFFF⟩
  bios := ⟨0x1FC00000, 0x00080000, 0x0007FFFF⟩
  exp2 := ⟨0x1F802000, 0x00002000, 0x00001FFF⟩
  spu := ⟨0x1F801C00, 0x00000300, 0x000003FF⟩
  dma := ⟨0x1F801080, 0x00000080, 0x0000007F⟩
  ramSize := 0x00200000
  biosSize := 0x00080000
  exp2StatusValue := 0x0000000C
  biosPatches := [(0x6F0C, 0x24010001), (0x6F14, 0xAF81A9C0)]
  biosWritePolicy := .store
  ttyFlushEmpty := true
  ttyBufCap := none
  buttonCount := 2
  buttonBit := [11, 10]
  buttonCode := [0, 1]
  buttonStateInit := 0xFFFF
  deltaInit := 0
  deviceType := .pointingDevice
  posBits := 32

/-- A power of two that a 32-bit quantity or a size up to 2^32 can be. -/
def isPowerOfTwo (n : Nat) : Bool := (List.range 33).any fun k => n == 2 ^ k

/-- Two windows share no address. -/
def Window.disjoint (a b : Window) : Bool :=
  a.size == 0 || b.size == 0 || decide (a.base.toNat + a.size ≤ b.base.toNat) || decide (b.base.toNat + b.size ≤ a.base.toNat)

/-- 00 R8.2 and R8.3 for one window. -/
def Window.placed (w : Window) : Bool :=
  w.base.toNat % (w.mask.toNat + 1) == 0 && decide (w.base.toNat + w.size ≤ 2 ^ 32)

/-- 00 R8.1: sizes and masks. -/
def Config.masksWf (c : Config) : Bool :=
  isPowerOfTwo c.ramSize && decide (4 ≤ c.ramSize) && c.ram.mask.toNat + 1 == c.ramSize
    && isPowerOfTwo c.biosSize && decide (4 ≤ c.biosSize) && c.bios.mask.toNat + 1 == c.biosSize
    && isPowerOfTwo (c.exp2.mask.toNat + 1) && isPowerOfTwo (c.spu.mask.toNat + 1) && isPowerOfTwo (c.dma.mask.toNat + 1)

/-- 00 R8.2 and R8.3: bases and ends. -/
def Config.windowsPlaced (c : Config) : Bool :=
  c.ram.placed && c.bios.placed && c.exp2.placed && c.spu.placed && c.dma.placed

/-- 00 R8.4: the five windows are pairwise disjoint. -/
def Config.windowsDisjoint (c : Config) : Bool :=
  c.ram.disjoint c.bios && c.ram.disjoint c.exp2 && c.ram.disjoint c.spu && c.ram.disjoint c.dma
    && c.bios.disjoint c.exp2 && c.bios.disjoint c.spu && c.bios.disjoint c.dma
    && c.exp2.disjoint c.spu && c.exp2.disjoint c.dma && c.spu.disjoint c.dma

/-- 00 R8.5 and R8.6: window sizes against masks and buffers, and the documented offsets inside their windows. -/
def Config.windowSizesWf (c : Config) : Bool :=
  decide (c.exp2.size ≤ c.exp2.mask.toNat + 1) && decide (c.spu.size ≤ c.spu.mask.toNat + 1)
    && decide (c.dma.size ≤ c.dma.mask.toNat + 1) && c.bios.size == c.biosSize && c.ram.size % c.ramSize == 0
    && decide (exp2PostOffset.toNat < c.exp2.size) && decide (spuStatOffset.toNat < c.spu.size) && c.dma.size % 4 == 0

/-- The patched byte ranges of two patches do not overlap (00 R8.7). -/
def patchesApart (p q : Nat × Word) : Bool := decide (p.1 + 4 ≤ q.1) || decide (q.1 + 4 ≤ p.1)

/-- 00 R8.7: exactly two patches (00 R6), inside the image, not overlapping. -/
def Config.patchesWf (c : Config) : Bool :=
  c.biosPatches.length == biosPatchCount && c.biosPatches.all (fun p => decide (p.1 + 4 ≤ c.biosSize))
    && match c.biosPatches with
      | [p, q] => patchesApart p q
      | _ => true

/-- 00 R8.8: one bit and one code per identity; `BUTTON_BIT` injective with values in 0..15; codes name identities. -/
def Config.buttonsWf (c : Config) : Bool :=
  c.buttonBit.length == c.buttonCount && c.buttonBit.all (fun b => decide (b < 16)) && decide c.buttonBit.Nodup
    && c.buttonCode.length == c.buttonCount && c.buttonCode.all (fun i => decide (i < c.buttonCount))

/-- 00 R8: the constraints every parameter choice must meet. DESIGN CHOICE, log 19: a coordinate has at least one bit. -/
def Config.wf (c : Config) : Bool :=
  c.masksWf && c.windowsPlaced && c.windowsDisjoint && c.windowSizesWf && c.patchesWf && c.buttonsWf && decide (1 ≤ c.posBits)

/-- A signed `POS_BITS`-bit integer (00 R7, R13). -/
def Config.coordinateFits (c : Config) (x : Int) : Bool :=
  decide (-(2 ^ (c.posBits - 1) : Int) ≤ x) && decide (x < 2 ^ (c.posBits - 1))

/-- Both coordinates of a position fit. -/
def Config.positionFits (c : Config) (p : Position) : Bool := c.coordinateFits p.x && c.coordinateFits p.y

/-- The signed `POS_BITS`-bit integer that an oracle's answer stands for: the answer itself where it fits (log 6). -/
def Config.toCoordinate (c : Config) (x : Int) : Int := Int.bmod x (2 ^ c.posBits)

end Sys2Proof
end

