-- ==== Sys2Proof/Syntax.lean ====
section
/-! DEFINITION. The abstract syntax: the enumerations of 00 R11, the operands, the 73 operations of spec/opcode_table.json
(30 R89, R90), and the operations as the agents issue them (30 R82 to R86). -/

namespace Sys2Proof

/-- `Direction` (00 R11). -/
inductive Direction where
  | read
  | write
  deriving DecidableEq, Repr

/-- `Width` (00 R11, 20 R59). -/
inductive Width where
  | byte
  | halfWord
  | word
  deriving DecidableEq, Repr

/-- `Region` (00 R11): the five regions, and `invalid` for an address in none of them. -/
inductive Region where
  | ram
  | bios
  | exp2
  | spu
  | dma
  | invalid
  deriving DecidableEq, Repr

/-- `TransferState` (00 R11, 10 R33): the position within the current byte exchange. -/
inductive TransferState where
  | idle
  | ready
  | idMsb
  | buttonsLsb
  | buttonsMsb
  | deltaX
  | deltaY
  deriving DecidableEq, Repr

/-- `count` copies of one byte, in a row. -/
structure Run where
  count : Nat
  byte : Byte
  deriving DecidableEq, Repr

/-- A finite sequence of bytes (a save-state stream, a BIOS file), written as runs. Every list of runs is a byte sequence:
the bytes of the first run, then those of the second, and so on (log 16). -/
abbrev Bytes := List Run

/-- The answer of the oracle `FileRead(path)` (00 R13, 45 R190). -/
inductive FileAnswer where
  /-- The file cannot be opened. -/
  | absent
  /-- The file yields its full byte sequence. -/
  | bytes (content : Bytes)
  /-- The file has `size` bytes and the read comes back short. -/
  | shortRead (size : Nat)
  deriving DecidableEq, Repr

/-- The operands of a bus read: the masked offset in the region (for `invalid` the whole `bus_addr`, 30 R83) and both address
views as issued (20 R63). -/
structure ReadOperands where
  offset : Word
  cpuAddr : Word
  busAddr : Word
  deriving DecidableEq, Repr

/-- The operands of a bus write: those of a read and the 32-bit carrier (30 R82, R91). -/
structure WriteOperands where
  offset : Word
  cpuAddr : Word
  busAddr : Word
  wdata : Word
  deriving DecidableEq, Repr

/-- The 73 operations of spec/opcode_table.json, in its order. The operands that come out of band (a stream, a file, an
oracle's answer) are operands here. -/
inductive Instr where
  /-- `RD.RAM.B` (R110). -/
  | rdRamB (o : ReadOperands)
  /-- `RD.RAM.H` (R110). -/
  | rdRamH (o : ReadOperands)
  /-- `RD.RAM.W` (R110). -/
  | rdRamW (o : ReadOperands)
  /-- `WR.RAM.B` (R112). -/
  | wrRamB (o : WriteOperands)
  /-- `WR.RAM.H` (R112). -/
  | wrRamH (o : WriteOperands)
  /-- `WR.RAM.W` (R112). -/
  | wrRamW (o : WriteOperands)
  /-- `RD.BIOS.B` (R114). -/
  | rdBiosB (o : ReadOperands)
  /-- `RD.BIOS.H` (R114). -/
  | rdBiosH (o : ReadOperands)
  /-- `RD.BIOS.W` (R114). -/
  | rdBiosW (o : ReadOperands)
  /-- `WR.BIOS.B` (R116). -/
  | wrBiosB (o : WriteOperands)
  /-- `WR.BIOS.H` (R116). -/
  | wrBiosH (o : WriteOperands)
  /-- `WR.BIOS.W` (R116). -/
  | wrBiosW (o : WriteOperands)
  /-- `RD.EXP2.STATUS.B` (R131). -/
  | rdExp2StatusB (o : ReadOperands)
  /-- `RD.EXP2.STATUS.H` (R131). -/
  | rdExp2StatusH (o : ReadOperands)
  /-- `RD.EXP2.STATUS.W` (R131). -/
  | rdExp2StatusW (o : ReadOperands)
  /-- `WR.EXP2.TTY.B` (R133). -/
  | wrExp2TtyB (o : WriteOperands)
  /-- `WR.EXP2.TTY.H` (R133). -/
  | wrExp2TtyH (o : WriteOperands)
  /-- `WR.EXP2.TTY.W` (R133). -/
  | wrExp2TtyW (o : WriteOperands)
  /-- `WR.EXP2.POST.B` (R135). -/
  | wrExp2PostB (o : WriteOperands)
  /-- `WR.EXP2.POST.H` (R135). -/
  | wrExp2PostH (o : WriteOperands)
  /-- `WR.EXP2.POST.W` (R135). -/
  | wrExp2PostW (o : WriteOperands)
  /-- `RD.EXP2.INV.B` (R138). -/
  | rdExp2InvB (o : ReadOperands)
  /-- `RD.EXP2.INV.H` (R138). -/
  | rdExp2InvH (o : ReadOperands)
  /-- `RD.EXP2.INV.W` (R138). -/
  | rdExp2InvW (o : ReadOperands)
  /-- `WR.EXP2.INV.B` (R139). -/
  | wrExp2InvB (o : WriteOperands)
  /-- `WR.EXP2.INV.H` (R139). -/
  | wrExp2InvH (o : WriteOperands)
  /-- `WR.EXP2.INV.W` (R139). -/
  | wrExp2InvW (o : WriteOperands)
  /-- `RD.SPU.STAT.B` (R151). -/
  | rdSpuStatB (o : ReadOperands)
  /-- `RD.SPU.STAT.H` (R151). -/
  | rdSpuStatH (o : ReadOperands)
  /-- `RD.SPU.STAT.W` (R151). -/
  | rdSpuStatW (o : ReadOperands)
  /-- `WR.SPU.FIFO.B` (R153). -/
  | wrSpuFifoB (o : WriteOperands)
  /-- `WR.SPU.FIFO.H` (R153). -/
  | wrSpuFifoH (o : WriteOperands)
  /-- `WR.SPU.FIFO.W` (R153). -/
  | wrSpuFifoW (o : WriteOperands)
  /-- `WR.SPU.CTRL.B` (R154). -/
  | wrSpuCtrlB (o : WriteOperands)
  /-- `WR.SPU.CTRL.H` (R154). -/
  | wrSpuCtrlH (o : WriteOperands)
  /-- `WR.SPU.CTRL.W` (R154). -/
  | wrSpuCtrlW (o : WriteOperands)
  /-- `RD.SPU.B` (R152). -/
  | rdSpuB (o : ReadOperands)
  /-- `RD.SPU.H` (R152). -/
  | rdSpuH (o : ReadOperands)
  /-- `RD.SPU.W` (R152). -/
  | rdSpuW (o : ReadOperands)
  /-- `WR.SPU.B` (R155). -/
  | wrSpuB (o : WriteOperands)
  /-- `WR.SPU.H` (R155). -/
  | wrSpuH (o : WriteOperands)
  /-- `WR.SPU.W` (R155). -/
  | wrSpuW (o : WriteOperands)
  /-- `RD.DMA.W` (R166). -/
  | rdDmaW (o : ReadOperands) (answer : Word)
  /-- `WR.DMA.W` (R167). -/
  | wrDmaW (o : WriteOperands)
  /-- `RD.DMA.B` (R168). -/
  | rdDmaB (o : ReadOperands)
  /-- `RD.DMA.H` (R168). -/
  | rdDmaH (o : ReadOperands)
  /-- `WR.DMA.B` (R168). -/
  | wrDmaB (o : WriteOperands)
  /-- `WR.DMA.H` (R168). -/
  | wrDmaH (o : WriteOperands)
  /-- `RD.INV.B` (R181). -/
  | rdInvB (o : ReadOperands)
  /-- `RD.INV.H` (R181). -/
  | rdInvH (o : ReadOperands)
  /-- `RD.INV.W` (R181). -/
  | rdInvW (o : ReadOperands)
  /-- `WR.INV.B` (R182). -/
  | wrInvB (o : WriteOperands)
  /-- `WR.INV.H` (R182). -/
  | wrInvH (o : WriteOperands)
  /-- `WR.INV.W` (R182). -/
  | wrInvW (o : WriteOperands)
  /-- `XFER.IDLE.SEL` (R201). -/
  | xferIdleSel
  /-- `XFER.IDLE.OTHER` (R202). -/
  | xferIdleOther (input : Byte)
  /-- `XFER.READY.POLL` (R203). -/
  | xferReadyPoll
  /-- `XFER.READY.OTHER` (R204). -/
  | xferReadyOther (input : Byte)
  /-- `XFER.IDMSB` (R205). -/
  | xferIdmsb (input : Byte)
  /-- `XFER.BTNLSB` (R206). -/
  | xferBtnlsb (input : Byte)
  /-- `XFER.BTNMSB` (R207). -/
  | xferBtnmsb (input : Byte)
  /-- `XFER.DELTAX` (R208). -/
  | xferDeltax (input : Byte) (pointer : Position)
  /-- `XFER.DELTAY` (R209). -/
  | xferDeltay (input : Byte)
  /-- `PRESET` (R230). -/
  | preset
  /-- `SETBTN` (R232). -/
  | setbtn (identity : Byte) (pressed : Bool)
  /-- `SETBTNC` (R233). -/
  | setbtnc (code : Byte) (pressed : Bool)
  /-- `PSAVE` (R252). -/
  | psave
  /-- `PLOAD` (R253). -/
  | pload (apply : Bool) (stream : Bytes)
  /-- `GETTYPE` (R236). -/
  | gettype
  /-- `GETVMC` (R237). -/
  | getvmc
  /-- `LOADBIOS` (R190). -/
  | loadbios (file : FileAnswer)
  /-- `BSAVE` (R258). -/
  | bsave
  /-- `BLOAD` (R259). -/
  | bload (stream : Bytes)
  deriving DecidableEq, Repr

/-- An operation as an agent issues it: the word in its format, and what the format leaves out of band. -/
inductive Request where
  /-- A bus transaction, format `TXN` (30 R82) with its sideband `cpu_addr`, and the DMA collaborator's answer, which only a
  `Word` read in the DMA window draws (43 R165). -/
  | txn (word : BitVec 72) (cpuAddr : Word) (dmaAnswer : Word)
  /-- A bus transaction whose region decode has been done, format `SEL` (30 R83), as the rows of the opcode table take it
  (30 R95; log 11), with the transaction's addresses and carrier. -/
  | sel (word : BitVec 44) (cpuAddr busAddr wdata : Word) (dmaAnswer : Word)
  /-- A command to block PERIPH, format `PCMD` (30 R84), with the restore stream (`PLOAD` only) and the answer of
  `PointerPosition()` (drawn by the `DeltaX` step only, 46 R213). -/
  | pcmd (word : BitVec 16) (stream : Bytes) (pointer : Position)
  /-- A host command to block BUS, format `HCMD` (30 R86), with the file's answer (`LOADBIOS` only) and the restore stream
  (`BLOAD` only). -/
  | hcmd (word : BitVec 8) (file : FileAnswer) (stream : Bytes)
  deriving DecidableEq, Repr

end Sys2Proof
end

