-- ==== Sys2Proof/WellFormed.lean ====
section
/-! DEFINITION. When an instruction is one that the decoder can hand to the machine, for a given configuration: its addresses
lie in its region (20 R50), its offset is the masked offset (30 R92) and the one its row names (30 R89), and its codes are not
reserved (30 R98). Written from the windows, not from the decoder's chain of checks. -/

namespace Sys2Proof

/-- The window of a region; an address of none is `invalid` (20 R50). -/
def Config.window? (c : Config) : Region → Option Window
  | .ram => some c.ram
  | .bios => some c.bios
  | .exp2 => some c.exp2
  | .spu => some c.spu
  | .dma => some c.dma
  | .invalid => none

/-- The address lies outside all five windows (20 R50, 44 R183). -/
def Config.unmapped (c : Config) (a : Word) : Bool :=
  !(c.ram.contains a || c.bios.contains a || c.exp2.contains a || c.spu.contains a || c.dma.contains a)

/-- `bus_addr` lies in the region and `offset` is its masked offset there; for `invalid` it is `bus_addr` itself (30 R83). -/
def Config.located (c : Config) (r : Region) (offset busAddr : Word) : Bool :=
  match c.window? r with
  | some w => w.contains busAddr && offset == w.offsetOf busAddr
  | none => c.unmapped busAddr && offset == busAddr

/-- A read whose offset meets the row's condition. -/
def ReadOperands.fits (o : ReadOperands) (c : Config) (r : Region) (row : Word → Bool) : Bool :=
  c.located r o.offset o.busAddr && row o.offset

/-- A write whose offset meets the row's condition. -/
def WriteOperands.fits (o : WriteOperands) (c : Config) (r : Region) (row : Word → Bool) : Bool :=
  c.located r o.offset o.busAddr && row o.offset

/-- Any offset of the window. -/
def anyOffset (_ : Word) : Bool := true

/-- The well-formedness of an instruction under a configuration. -/
def WellFormed (c : Config) (i : Instr) : Bool :=
  match i with
  | .rdRamB o => o.fits c .ram anyOffset
  | .rdRamH o => o.fits c .ram anyOffset
  | .rdRamW o => o.fits c .ram anyOffset
  | .wrRamB o => o.fits c .ram anyOffset
  | .wrRamH o => o.fits c .ram anyOffset
  | .wrRamW o => o.fits c .ram anyOffset
  | .rdBiosB o => o.fits c .bios anyOffset
  | .rdBiosH o => o.fits c .bios anyOffset
  | .rdBiosW o => o.fits c .bios anyOffset
  | .wrBiosB o => o.fits c .bios anyOffset
  | .wrBiosH o => o.fits c .bios anyOffset
  | .wrBiosW o => o.fits c .bios anyOffset
  | .rdExp2StatusB o => o.fits c .exp2 (· == exp2StatusOffset)
  | .rdExp2StatusH o => o.fits c .exp2 (· == exp2StatusOffset)
  | .rdExp2StatusW o => o.fits c .exp2 (· == exp2StatusOffset)
  | .wrExp2TtyB o => o.fits c .exp2 (· == exp2TtyOffset)
  | .wrExp2TtyH o => o.fits c .exp2 (· == exp2TtyOffset)
  | .wrExp2TtyW o => o.fits c .exp2 (· == exp2TtyOffset)
  | .wrExp2PostB o => o.fits c .exp2 (· == exp2PostOffset)
  | .wrExp2PostH o => o.fits c .exp2 (· == exp2PostOffset)
  | .wrExp2PostW o => o.fits c .exp2 (· == exp2PostOffset)
  | .rdExp2InvB o => o.fits c .exp2 (· != exp2StatusOffset)
  | .rdExp2InvH o => o.fits c .exp2 (· != exp2StatusOffset)
  | .rdExp2InvW o => o.fits c .exp2 (· != exp2StatusOffset)
  | .wrExp2InvB o => o.fits c .exp2 (fun f => f != exp2TtyOffset && f != exp2PostOffset)
  | .wrExp2InvH o => o.fits c .exp2 (fun f => f != exp2TtyOffset && f != exp2PostOffset)
  | .wrExp2InvW o => o.fits c .exp2 (fun f => f != exp2TtyOffset && f != exp2PostOffset)
  | .rdSpuStatB o => o.fits c .spu (· == spuStatOffset)
  | .rdSpuStatH o => o.fits c .spu (· == spuStatOffset)
  | .rdSpuStatW o => o.fits c .spu (· == spuStatOffset)
  | .wrSpuFifoB o => o.fits c .spu (· == spuFifoOffset)
  | .wrSpuFifoH o => o.fits c .spu (· == spuFifoOffset)
  | .wrSpuFifoW o => o.fits c .spu (· == spuFifoOffset)
  | .wrSpuCtrlB o => o.fits c .spu (· == spuCtrlOffset)
  | .wrSpuCtrlH o => o.fits c .spu (· == spuCtrlOffset)
  | .wrSpuCtrlW o => o.fits c .spu (· == spuCtrlOffset)
  | .rdSpuB o => o.fits c .spu (· != spuStatOffset)
  | .rdSpuH o => o.fits c .spu (· != spuStatOffset)
  | .rdSpuW o => o.fits c .spu (· != spuStatOffset)
  | .wrSpuB o => o.fits c .spu (fun f => f != spuFifoOffset && f != spuCtrlOffset)
  | .wrSpuH o => o.fits c .spu (fun f => f != spuFifoOffset && f != spuCtrlOffset)
  | .wrSpuW o => o.fits c .spu (fun f => f != spuFifoOffset && f != spuCtrlOffset)
  | .rdDmaW o _ => o.fits c .dma anyOffset
  | .wrDmaW o => o.fits c .dma anyOffset
  | .rdDmaB o => o.fits c .dma anyOffset
  | .rdDmaH o => o.fits c .dma anyOffset
  | .wrDmaB o => o.fits c .dma anyOffset
  | .wrDmaH o => o.fits c .dma anyOffset
  | .rdInvB o => o.fits c .invalid anyOffset
  | .rdInvH o => o.fits c .invalid anyOffset
  | .rdInvW o => o.fits c .invalid anyOffset
  | .wrInvB o => o.fits c .invalid anyOffset
  | .wrInvH o => o.fits c .invalid anyOffset
  | .wrInvW o => o.fits c .invalid anyOffset
  | .xferIdleSel => true
  | .xferIdleOther input => input != cmdSelect
  | .xferReadyPoll => true
  | .xferReadyOther input => input != cmdPoll
  | .xferIdmsb _ => true
  | .xferBtnlsb _ => true
  | .xferBtnmsb _ => true
  | .xferDeltax _ pointer => c.positionFits pointer
  | .xferDeltay _ => true
  | .preset => true
  | .setbtn identity _ => decide (identity.toNat < c.buttonCount)
  | .setbtnc _ _ => true
  | .psave => true
  | .pload _ _ => true
  | .gettype => true
  | .getvmc => true
  | .loadbios _ => true
  | .bsave => true
  | .bload _ => true

/-- The state a transfer's row is selected in (30 R90); the other operations are selected in every state. -/
def Instr.transferRow : Instr → Option TransferState
  | .rdRamB _ => none
  | .rdRamH _ => none
  | .rdRamW _ => none
  | .wrRamB _ => none
  | .wrRamH _ => none
  | .wrRamW _ => none
  | .rdBiosB _ => none
  | .rdBiosH _ => none
  | .rdBiosW _ => none
  | .wrBiosB _ => none
  | .wrBiosH _ => none
  | .wrBiosW _ => none
  | .rdExp2StatusB _ => none
  | .rdExp2StatusH _ => none
  | .rdExp2StatusW _ => none
  | .wrExp2TtyB _ => none
  | .wrExp2TtyH _ => none
  | .wrExp2TtyW _ => none
  | .wrExp2PostB _ => none
  | .wrExp2PostH _ => none
  | .wrExp2PostW _ => none
  | .rdExp2InvB _ => none
  | .rdExp2InvH _ => none
  | .rdExp2InvW _ => none
  | .wrExp2InvB _ => none
  | .wrExp2InvH _ => none
  | .wrExp2InvW _ => none
  | .rdSpuStatB _ => none
  | .rdSpuStatH _ => none
  | .rdSpuStatW _ => none
  | .wrSpuFifoB _ => none
  | .wrSpuFifoH _ => none
  | .wrSpuFifoW _ => none
  | .wrSpuCtrlB _ => none
  | .wrSpuCtrlH _ => none
  | .wrSpuCtrlW _ => none
  | .rdSpuB _ => none
  | .rdSpuH _ => none
  | .rdSpuW _ => none
  | .wrSpuB _ => none
  | .wrSpuH _ => none
  | .wrSpuW _ => none
  | .rdDmaW _ _ => none
  | .wrDmaW _ => none
  | .rdDmaB _ => none
  | .rdDmaH _ => none
  | .wrDmaB _ => none
  | .wrDmaH _ => none
  | .rdInvB _ => none
  | .rdInvH _ => none
  | .rdInvW _ => none
  | .wrInvB _ => none
  | .wrInvH _ => none
  | .wrInvW _ => none
  | .xferIdleSel => some .idle
  | .xferIdleOther _ => some .idle
  | .xferReadyPoll => some .ready
  | .xferReadyOther _ => some .ready
  | .xferIdmsb _ => some .idMsb
  | .xferBtnlsb _ => some .buttonsLsb
  | .xferBtnmsb _ => some .buttonsMsb
  | .xferDeltax _ _ => some .deltaX
  | .xferDeltay _ => some .deltaY
  | .preset => none
  | .setbtn _ _ => none
  | .setbtnc _ _ => none
  | .psave => none
  | .pload _ _ => none
  | .gettype => none
  | .getvmc => none
  | .loadbios _ => none
  | .bsave => none
  | .bload _ => none

end Sys2Proof
end

