-- ==== Sys2Proof/Decode.lean ====
section
/-! DEFINITION. Decoding (30 section 3), total on every word of every format, rejecting by name; then the encoder, the opcode
table as data (30 R95), and the reading of a table word for the host. Numeric codes are those of 30 R81 (DESIGN CHOICE of the
spec, D28, D29). -/

namespace Sys2Proof

/-- Why a word is refused (30 R88, R96 to R98; 60 R275). -/
inductive DecodeError where
  /-- `dir` is 2 to 15 (30 R98). -/
  | reservedDirection
  /-- `width` is 3 to 15 (30 R96). -/
  | reservedWidth
  /-- A read `TXN` with `wdata != 0` (30 R88). -/
  | readWithData
  /-- A `SEL` word with a region code that R88 never produces (30 R97). -/
  | reservedRegion
  /-- An `XSEL` word whose state code is 7 to 15 (30 R97). -/
  | reservedTransferState
  /-- A `PCMD` command 8 to 15 or an `HCMD` command 3 to 15 (30 R98). -/
  | reservedCommand
  /-- Nonzero bits of `arg` or of the `HCMD` low nibble that the command does not use (30 R98). -/
  | nonzeroUnusedBits
  /-- A `SETBTN` identity code not below `BUTTON_COUNT` (30 R98). -/
  | noSuchButton
  deriving DecidableEq, Repr

/-! ## Enumeration codes (30 R81) -/

/-- The code of a direction. -/
def Direction.code : Direction → BitVec 4
  | .read => 0
  | .write => 1

/-- The direction of a code; 2 to 15 are reserved. -/
def Direction.ofCode (n : BitVec 4) : Option Direction :=
  match n.toNat with
  | 0 => some .read
  | 1 => some .write
  | _ => none

/-- The code of a width. -/
def Width.code : Width → BitVec 4
  | .byte => 0
  | .halfWord => 1
  | .word => 2

/-- The width of a code; 3 to 15 are reserved. -/
def Width.ofCode (n : BitVec 4) : Option Width :=
  match n.toNat with
  | 0 => some .byte
  | 1 => some .halfWord
  | 2 => some .word
  | _ => none

/-- The code of a region. -/
def Region.code : Region → BitVec 4
  | .ram => 0
  | .bios => 1
  | .exp2 => 2
  | .spu => 3
  | .dma => 4
  | .invalid => 7

/-- The region of a code; 5, 6 and 8 to 15 are never produced. -/
def Region.ofCode (n : BitVec 4) : Option Region :=
  match n.toNat with
  | 0 => some .ram
  | 1 => some .bios
  | 2 => some .exp2
  | 3 => some .spu
  | 4 => some .dma
  | 7 => some .invalid
  | _ => none

/-- The code of a transfer state, in the `XSEL` selector and in the save-state stream (48 R251). -/
def TransferState.code : TransferState → Nat
  | .idle => 0
  | .ready => 1
  | .idMsb => 2
  | .buttonsLsb => 3
  | .buttonsMsb => 4
  | .deltaX => 5
  | .deltaY => 6

/-- The transfer state of a code; 7 upward is no state (30 R97). -/
def TransferState.ofCode : Nat → Option TransferState
  | 0 => some .idle
  | 1 => some .ready
  | 2 => some .idMsb
  | 3 => some .buttonsLsb
  | 4 => some .buttonsMsb
  | 5 => some .deltaX
  | 6 => some .deltaY
  | _ => none

/-! ## Selecting the operation (30 R89, R90) -/

/-- One of three by width. -/
def Width.pick {α : Type} (w : Width) (b h ww : α) : α :=
  match w with
  | .byte => b
  | .halfWord => h
  | .word => ww

/-- The row of a read (30 R89). `answer` is the DMA collaborator's, drawn by `RD.DMA.W` alone. -/
def selectRead (w : Width) (r : Region) (o : ReadOperands) (answer : Word) : Instr :=
  match r with
  | .ram => w.pick (.rdRamB o) (.rdRamH o) (.rdRamW o)
  | .bios => w.pick (.rdBiosB o) (.rdBiosH o) (.rdBiosW o)
  | .exp2 =>
    if o.offset = exp2StatusOffset then w.pick (.rdExp2StatusB o) (.rdExp2StatusH o) (.rdExp2StatusW o)
    else w.pick (.rdExp2InvB o) (.rdExp2InvH o) (.rdExp2InvW o)
  | .spu =>
    if o.offset = spuStatOffset then w.pick (.rdSpuStatB o) (.rdSpuStatH o) (.rdSpuStatW o)
    else w.pick (.rdSpuB o) (.rdSpuH o) (.rdSpuW o)
  | .dma => w.pick (.rdDmaB o) (.rdDmaH o) (.rdDmaW o answer)
  | .invalid => w.pick (.rdInvB o) (.rdInvH o) (.rdInvW o)

/-- The row of a write (30 R89). -/
def selectWrite (w : Width) (r : Region) (o : WriteOperands) : Instr :=
  match r with
  | .ram => w.pick (.wrRamB o) (.wrRamH o) (.wrRamW o)
  | .bios => w.pick (.wrBiosB o) (.wrBiosH o) (.wrBiosW o)
  | .exp2 =>
    if o.offset = exp2TtyOffset then w.pick (.wrExp2TtyB o) (.wrExp2TtyH o) (.wrExp2TtyW o)
    else if o.offset = exp2PostOffset then w.pick (.wrExp2PostB o) (.wrExp2PostH o) (.wrExp2PostW o)
    else w.pick (.wrExp2InvB o) (.wrExp2InvH o) (.wrExp2InvW o)
  | .spu =>
    if o.offset = spuFifoOffset then w.pick (.wrSpuFifoB o) (.wrSpuFifoH o) (.wrSpuFifoW o)
    else if o.offset = spuCtrlOffset then w.pick (.wrSpuCtrlB o) (.wrSpuCtrlH o) (.wrSpuCtrlW o)
    else w.pick (.wrSpuB o) (.wrSpuH o) (.wrSpuW o)
  | .dma => w.pick (.wrDmaB o) (.wrDmaH o) (.wrDmaW o)
  | .invalid => w.pick (.wrInvB o) (.wrInvH o) (.wrInvW o)

/-- A decoded bus transaction, the content of a `SEL` word (30 R83). -/
structure Selector where
  direction : Direction
  width : Width
  region : Region
  offset : Word
  deriving DecidableEq, Repr

/-- The operation a selector names, with the transaction's other operands. -/
def Selector.instr (s : Selector) (cpuAddr busAddr wdata answer : Word) : Instr :=
  match s.direction with
  | .read => selectRead s.width s.region ⟨s.offset, cpuAddr, busAddr⟩ answer
  | .write => selectWrite s.width s.region ⟨s.offset, cpuAddr, busAddr, wdata⟩

/-- The row of a transfer, on the state and the input byte (30 R90). -/
def selectTransfer (t : TransferState) (input : Byte) (pointer : Position) : Instr :=
  match t with
  | .idle => if input = cmdSelect then .xferIdleSel else .xferIdleOther input
  | .ready => if input = cmdPoll then .xferReadyPoll else .xferReadyOther input
  | .idMsb => .xferIdmsb input
  | .buttonsLsb => .xferBtnlsb input
  | .buttonsMsb => .xferBtnmsb input
  | .deltaX => .xferDeltax input pointer
  | .deltaY => .xferDeltay input

/-! ## Decoding the five formats -/

/-- Region and offset of a physical address: the chain of range checks of 30 R88. -/
def Config.resolve (c : Config) (a : Word) : Region × Word :=
  if c.ram.contains a then (.ram, c.ram.offsetOf a)
  else if c.bios.contains a then (.bios, c.bios.offsetOf a)
  else if c.exp2.contains a then (.exp2, c.exp2.offsetOf a)
  else if c.spu.contains a then (.spu, c.spu.offsetOf a)
  else if c.dma.contains a then (.dma, c.dma.offsetOf a)
  else (.invalid, a)

/-- Direction and width of a bus word, direction first (30 R88). -/
def decodeAccess (dir width : BitVec 4) : Except DecodeError (Direction × Width) :=
  match Direction.ofCode dir, Width.ofCode width with
  | none, _ => .error .reservedDirection
  | some _, none => .error .reservedWidth
  | some d, some w => .ok (d, w)

/-- A `TXN` word to its selector (30 R82, R88). -/
def decodeTxn (c : Config) (t : BitVec 72) : Except DecodeError Selector :=
  match decodeAccess (t.extractLsb' 68 4) (t.extractLsb' 64 4) with
  | .error e => .error e
  | .ok (d, w) =>
    if d = .read ∧ t.extractLsb' 0 32 ≠ 0 then .error .readWithData
    else
      let at' := c.resolve (t.extractLsb' 32 32)
      .ok ⟨d, w, at'.1, at'.2⟩

/-- A `SEL` word to its selector (30 R83). -/
def decodeSel (s : BitVec 44) : Except DecodeError Selector :=
  match decodeAccess (s.extractLsb' 40 4) (s.extractLsb' 36 4) with
  | .error e => .error e
  | .ok (d, w) =>
    match Region.ofCode (s.extractLsb' 32 4) with
    | none => .error .reservedRegion
    | some r => .ok ⟨d, w, r, s.extractLsb' 0 32⟩

/-- An `XSEL` word (30 R85). -/
def decodeXsel (x : BitVec 12) (pointer : Position) : Except DecodeError Instr :=
  match TransferState.ofCode (x.extractLsb' 8 4).toNat with
  | none => .error .reservedTransferState
  | some t => .ok (selectTransfer t (x.extractLsb' 0 8) pointer)

/-- The operation if the unused bits are zero. -/
def whenZero {n : Nat} (unused : BitVec n) (i : Instr) : Except DecodeError Instr :=
  if unused = 0 then .ok i else .error .nonzeroUnusedBits

/-- A `PCMD` word while block PERIPH is in a transfer state (30 R84, R90, R98). -/
def decodePcmd (c : Config) (t : TransferState) (p : BitVec 16) (stream : Bytes) (pointer : Position) :
    Except DecodeError Instr :=
  match (p.extractLsb' 12 4).toNat with
  | 0 => whenZero (p.extractLsb' 8 4) (selectTransfer t (p.extractLsb' 0 8) pointer)
  | 1 => whenZero (p.extractLsb' 0 12) .preset
  | 2 =>
    if (p.extractLsb' 0 8).toNat < c.buttonCount then whenZero (p.extractLsb' 9 3) (.setbtn (p.extractLsb' 0 8) (p.getLsbD 8))
    else .error .noSuchButton
  | 3 => whenZero (p.extractLsb' 9 3) (.setbtnc (p.extractLsb' 0 8) (p.getLsbD 8))
  | 4 => whenZero (p.extractLsb' 0 12) .psave
  | 5 => whenZero (p.extractLsb' 1 11) (.pload (p.getLsbD 0) stream)
  | 6 => whenZero (p.extractLsb' 0 12) .gettype
  | 7 => whenZero (p.extractLsb' 0 12) .getvmc
  | _ => .error .reservedCommand

/-- An `HCMD` word (30 R86, R98). -/
def decodeHcmd (h : BitVec 8) (file : FileAnswer) (stream : Bytes) : Except DecodeError Instr :=
  match (h.extractLsb' 4 4).toNat with
  | 0 => whenZero (h.extractLsb' 0 4) (.loadbios file)
  | 1 => whenZero (h.extractLsb' 0 4) .bsave
  | 2 => whenZero (h.extractLsb' 0 4) (.bload stream)
  | _ => .error .reservedCommand

/-- The operation a request asks for, while block PERIPH is in a transfer state (30 R100). -/
def decode (c : Config) (t : TransferState) : Request → Except DecodeError Instr
  | .txn word cpuAddr answer =>
    (decodeTxn c word).map fun s => s.instr cpuAddr (word.extractLsb' 32 32) (word.extractLsb' 0 32) answer
  | .sel word cpuAddr busAddr wdata answer => (decodeSel word).map fun s => s.instr cpuAddr busAddr wdata answer
  | .pcmd word stream pointer => decodePcmd c t word stream pointer
  | .hcmd word file stream => decodeHcmd word file stream

/-- A request that is a bus transaction, which the block gates before it looks at the word (60 R279). -/
def Request.isTransaction : Request → Bool
  | .txn .. => true
  | .sel .. => true
  | .pcmd .. => false
  | .hcmd .. => false

/-! ## The encoder -/

/-- A `TXN` word: `dir ++ width ++ bus_addr ++ wdata` (30 R82). -/
def txnWord (d : Direction) (w : Width) (busAddr wdata : Word) : BitVec 72 := d.code ++ w.code ++ busAddr ++ wdata

/-- A `SEL` word: `dir ++ width ++ region ++ offset` (30 R83). -/
def Selector.word (s : Selector) : BitVec 44 := s.direction.code ++ s.width.code ++ s.region.code ++ s.offset

/-- An `XSEL` word: `transfer_state ++ in` (30 R85). -/
def xselWord (t : TransferState) (input : Byte) : BitVec 12 := BitVec.ofNat 4 t.code ++ input

/-- A `PCMD` word: `cmd ++ arg` (30 R84). -/
def pcmdWord (cmd : BitVec 4) (arg : BitVec 12) : BitVec 16 := cmd ++ arg

/-- The `arg` of the button commands: `0 ++ pressed ++ code` (30 R84). -/
def buttonArg (code : Byte) (pressed : Bool) : BitVec 12 := (0 : BitVec 3) ++ BitVec.ofBool pressed ++ code

/-- The `arg` of `PLOAD`: `0 ++ apply_input` (30 R84). -/
def ploadArg (apply : Bool) : BitVec 12 := (0 : BitVec 11) ++ BitVec.ofBool apply

/-- An `HCMD` word: `cmd ++ 0` (30 R86). -/
def hcmdWord (cmd : BitVec 4) : BitVec 8 := cmd ++ (0 : BitVec 4)

/-- A bus read as issued; `wdata` is 0 on a read. -/
def encodeRead (w : Width) (o : ReadOperands) (answer : Word) : Request := .txn (txnWord .read w o.busAddr 0) o.cpuAddr answer

/-- A bus write as issued. -/
def encodeWrite (w : Width) (o : WriteOperands) : Request := .txn (txnWord .write w o.busAddr o.wdata) o.cpuAddr 0

/-- A transfer of one input byte as issued. -/
def encodeTransfer (input : Byte) (pointer : Position) : Request :=
  .pcmd (pcmdWord 0 ((0 : BitVec 4) ++ input)) [] pointer

/-- A peripheral command that takes no stream. -/
def encodeCommand (cmd : BitVec 4) (arg : BitVec 12) : Request := .pcmd (pcmdWord cmd arg) [] default

/-- The request that asks for a well-formed instruction: its word in its format, and its out-of-band operands. -/
def encode : Instr → Request
  | .rdRamB o => encodeRead .byte o 0
  | .rdRamH o => encodeRead .halfWord o 0
  | .rdRamW o => encodeRead .word o 0
  | .wrRamB o => encodeWrite .byte o
  | .wrRamH o => encodeWrite .halfWord o
  | .wrRamW o => encodeWrite .word o
  | .rdBiosB o => encodeRead .byte o 0
  | .rdBiosH o => encodeRead .halfWord o 0
  | .rdBiosW o => encodeRead .word o 0
  | .wrBiosB o => encodeWrite .byte o
  | .wrBiosH o => encodeWrite .halfWord o
  | .wrBiosW o => encodeWrite .word o
  | .rdExp2StatusB o => encodeRead .byte o 0
  | .rdExp2StatusH o => encodeRead .halfWord o 0
  | .rdExp2StatusW o => encodeRead .word o 0
  | .wrExp2TtyB o => encodeWrite .byte o
  | .wrExp2TtyH o => encodeWrite .halfWord o
  | .wrExp2TtyW o => encodeWrite .word o
  | .wrExp2PostB o => encodeWrite .byte o
  | .wrExp2PostH o => encodeWrite .halfWord o
  | .wrExp2PostW o => encodeWrite .word o
  | .rdExp2InvB o => encodeRead .byte o 0
  | .rdExp2InvH o => encodeRead .halfWord o 0
  | .rdExp2InvW o => encodeRead .word o 0
  | .wrExp2InvB o => encodeWrite .byte o
  | .wrExp2InvH o => encodeWrite .halfWord o
  | .wrExp2InvW o => encodeWrite .word o
  | .rdSpuStatB o => encodeRead .byte o 0
  | .rdSpuStatH o => encodeRead .halfWord o 0
  | .rdSpuStatW o => encodeRead .word o 0
  | .wrSpuFifoB o => encodeWrite .byte o
  | .wrSpuFifoH o => encodeWrite .halfWord o
  | .wrSpuFifoW o => encodeWrite .word o
  | .wrSpuCtrlB o => encodeWrite .byte o
  | .wrSpuCtrlH o => encodeWrite .halfWord o
  | .wrSpuCtrlW o => encodeWrite .word o
  | .rdSpuB o => encodeRead .byte o 0
  | .rdSpuH o => encodeRead .halfWord o 0
  | .rdSpuW o => encodeRead .word o 0
  | .wrSpuB o => encodeWrite .byte o
  | .wrSpuH o => encodeWrite .halfWord o
  | .wrSpuW o => encodeWrite .word o
  | .rdDmaW o answer => encodeRead .word o answer
  | .wrDmaW o => encodeWrite .word o
  | .rdDmaB o => encodeRead .byte o 0
  | .rdDmaH o => encodeRead .halfWord o 0
  | .wrDmaB o => encodeWrite .byte o
  | .wrDmaH o => encodeWrite .halfWord o
  | .rdInvB o => encodeRead .byte o 0
  | .rdInvH o => encodeRead .halfWord o 0
  | .rdInvW o => encodeRead .word o 0
  | .wrInvB o => encodeWrite .byte o
  | .wrInvH o => encodeWrite .halfWord o
  | .wrInvW o => encodeWrite .word o
  | .xferIdleSel => encodeTransfer cmdSelect default
  | .xferIdleOther input => encodeTransfer input default
  | .xferReadyPoll => encodeTransfer cmdPoll default
  | .xferReadyOther input => encodeTransfer input default
  | .xferIdmsb input => encodeTransfer input default
  | .xferBtnlsb input => encodeTransfer input default
  | .xferBtnmsb input => encodeTransfer input default
  | .xferDeltax input pointer => encodeTransfer input pointer
  | .xferDeltay input => encodeTransfer input default
  | .preset => encodeCommand 1 0
  | .setbtn identity pressed => encodeCommand 2 (buttonArg identity pressed)
  | .setbtnc code pressed => encodeCommand 3 (buttonArg code pressed)
  | .psave => encodeCommand 4 0
  | .pload apply stream => .pcmd (pcmdWord 5 (ploadArg apply)) stream default
  | .gettype => encodeCommand 6 0
  | .getvmc => encodeCommand 7 0
  | .loadbios file => .hcmd (hcmdWord 0) file []
  | .bsave => .hcmd (hcmdWord 1) .absent []
  | .bload stream => .hcmd (hcmdWord 2) .absent stream

/-! ## The opcode table (30 R95) -/

/-- The formats of the table's rows. -/
inductive Format where
  | sel
  | xsel
  | pcmd
  | hcmd
  deriving DecidableEq, Repr

/-- The width of a format in bits. -/
def Format.bits : Format → Nat
  | .sel => 44
  | .xsel => 12
  | .pcmd => 16
  | .hcmd => 8

/-- One row of spec/opcode_table.json. -/
structure Row where
  format : Format
  pattern : Nat
  mask : Nat
  mnemonic : String
  deriving DecidableEq, Repr

/-- The mnemonic of an instruction, as spec/opcode_table.json spells it. -/
def Instr.mnemonic : Instr → String
  | .rdRamB _ => "RD.RAM.B"
  | .rdRamH _ => "RD.RAM.H"
  | .rdRamW _ => "RD.RAM.W"
  | .wrRamB _ => "WR.RAM.B"
  | .wrRamH _ => "WR.RAM.H"
  | .wrRamW _ => "WR.RAM.W"
  | .rdBiosB _ => "RD.BIOS.B"
  | .rdBiosH _ => "RD.BIOS.H"
  | .rdBiosW _ => "RD.BIOS.W"
  | .wrBiosB _ => "WR.BIOS.B"
  | .wrBiosH _ => "WR.BIOS.H"
  | .wrBiosW _ => "WR.BIOS.W"
  | .rdExp2StatusB _ => "RD.EXP2.STATUS.B"
  | .rdExp2StatusH _ => "RD.EXP2.STATUS.H"
  | .rdExp2StatusW _ => "RD.EXP2.STATUS.W"
  | .wrExp2TtyB _ => "WR.EXP2.TTY.B"
  | .wrExp2TtyH _ => "WR.EXP2.TTY.H"
  | .wrExp2TtyW _ => "WR.EXP2.TTY.W"
  | .wrExp2PostB _ => "WR.EXP2.POST.B"
  | .wrExp2PostH _ => "WR.EXP2.POST.H"
  | .wrExp2PostW _ => "WR.EXP2.POST.W"
  | .rdExp2InvB _ => "RD.EXP2.INV.B"
  | .rdExp2InvH _ => "RD.EXP2.INV.H"
  | .rdExp2InvW _ => "RD.EXP2.INV.W"
  | .wrExp2InvB _ => "WR.EXP2.INV.B"
  | .wrExp2InvH _ => "WR.EXP2.INV.H"
  | .wrExp2InvW _ => "WR.EXP2.INV.W"
  | .rdSpuStatB _ => "RD.SPU.STAT.B"
  | .rdSpuStatH _ => "RD.SPU.STAT.H"
  | .rdSpuStatW _ => "RD.SPU.STAT.W"
  | .wrSpuFifoB _ => "WR.SPU.FIFO.B"
  | .wrSpuFifoH _ => "WR.SPU.FIFO.H"
  | .wrSpuFifoW _ => "WR.SPU.FIFO.W"
  | .wrSpuCtrlB _ => "WR.SPU.CTRL.B"
  | .wrSpuCtrlH _ => "WR.SPU.CTRL.H"
  | .wrSpuCtrlW _ => "WR.SPU.CTRL.W"
  | .rdSpuB _ => "RD.SPU.B"
  | .rdSpuH _ => "RD.SPU.H"
  | .rdSpuW _ => "RD.SPU.W"
  | .wrSpuB _ => "WR.SPU.B"
  | .wrSpuH _ => "WR.SPU.H"
  | .wrSpuW _ => "WR.SPU.W"
  | .rdDmaW _ _ => "RD.DMA.W"
  | .wrDmaW _ => "WR.DMA.W"
  | .rdDmaB _ => "RD.DMA.B"
  | .rdDmaH _ => "RD.DMA.H"
  | .wrDmaB _ => "WR.DMA.B"
  | .wrDmaH _ => "WR.DMA.H"
  | .rdInvB _ => "RD.INV.B"
  | .rdInvH _ => "RD.INV.H"
  | .rdInvW _ => "RD.INV.W"
  | .wrInvB _ => "WR.INV.B"
  | .wrInvH _ => "WR.INV.H"
  | .wrInvW _ => "WR.INV.W"
  | .xferIdleSel => "XFER.IDLE.SEL"
  | .xferIdleOther _ => "XFER.IDLE.OTHER"
  | .xferReadyPoll => "XFER.READY.POLL"
  | .xferReadyOther _ => "XFER.READY.OTHER"
  | .xferIdmsb _ => "XFER.IDMSB"
  | .xferBtnlsb _ => "XFER.BTNLSB"
  | .xferBtnmsb _ => "XFER.BTNMSB"
  | .xferDeltax _ _ => "XFER.DELTAX"
  | .xferDeltay _ => "XFER.DELTAY"
  | .preset => "PRESET"
  | .setbtn _ _ => "SETBTN"
  | .setbtnc _ _ => "SETBTNC"
  | .psave => "PSAVE"
  | .pload _ _ => "PLOAD"
  | .gettype => "GETTYPE"
  | .getvmc => "GETVMC"
  | .loadbios _ => "LOADBIOS"
  | .bsave => "BSAVE"
  | .bload _ => "BLOAD"

/-- The word of an instruction in the format of its table row. -/
def tableWord : Instr → Format × Nat
  | .rdRamB o => (.sel, (Selector.word ⟨.read, .byte, .ram, o.offset⟩).toNat)
  | .rdRamH o => (.sel, (Selector.word ⟨.read, .halfWord, .ram, o.offset⟩).toNat)
  | .rdRamW o => (.sel, (Selector.word ⟨.read, .word, .ram, o.offset⟩).toNat)
  | .wrRamB o => (.sel, (Selector.word ⟨.write, .byte, .ram, o.offset⟩).toNat)
  | .wrRamH o => (.sel, (Selector.word ⟨.write, .halfWord, .ram, o.offset⟩).toNat)
  | .wrRamW o => (.sel, (Selector.word ⟨.write, .word, .ram, o.offset⟩).toNat)
  | .rdBiosB o => (.sel, (Selector.word ⟨.read, .byte, .bios, o.offset⟩).toNat)
  | .rdBiosH o => (.sel, (Selector.word ⟨.read, .halfWord, .bios, o.offset⟩).toNat)
  | .rdBiosW o => (.sel, (Selector.word ⟨.read, .word, .bios, o.offset⟩).toNat)
  | .wrBiosB o => (.sel, (Selector.word ⟨.write, .byte, .bios, o.offset⟩).toNat)
  | .wrBiosH o => (.sel, (Selector.word ⟨.write, .halfWord, .bios, o.offset⟩).toNat)
  | .wrBiosW o => (.sel, (Selector.word ⟨.write, .word, .bios, o.offset⟩).toNat)
  | .rdExp2StatusB o => (.sel, (Selector.word ⟨.read, .byte, .exp2, o.offset⟩).toNat)
  | .rdExp2StatusH o => (.sel, (Selector.word ⟨.read, .halfWord, .exp2, o.offset⟩).toNat)
  | .rdExp2StatusW o => (.sel, (Selector.word ⟨.read, .word, .exp2, o.offset⟩).toNat)
  | .wrExp2TtyB o => (.sel, (Selector.word ⟨.write, .byte, .exp2, o.offset⟩).toNat)
  | .wrExp2TtyH o => (.sel, (Selector.word ⟨.write, .halfWord, .exp2, o.offset⟩).toNat)
  | .wrExp2TtyW o => (.sel, (Selector.word ⟨.write, .word, .exp2, o.offset⟩).toNat)
  | .wrExp2PostB o => (.sel, (Selector.word ⟨.write, .byte, .exp2, o.offset⟩).toNat)
  | .wrExp2PostH o => (.sel, (Selector.word ⟨.write, .halfWord, .exp2, o.offset⟩).toNat)
  | .wrExp2PostW o => (.sel, (Selector.word ⟨.write, .word, .exp2, o.offset⟩).toNat)
  | .rdExp2InvB o => (.sel, (Selector.word ⟨.read, .byte, .exp2, o.offset⟩).toNat)
  | .rdExp2InvH o => (.sel, (Selector.word ⟨.read, .halfWord, .exp2, o.offset⟩).toNat)
  | .rdExp2InvW o => (.sel, (Selector.word ⟨.read, .word, .exp2, o.offset⟩).toNat)
  | .wrExp2InvB o => (.sel, (Selector.word ⟨.write, .byte, .exp2, o.offset⟩).toNat)
  | .wrExp2InvH o => (.sel, (Selector.word ⟨.write, .halfWord, .exp2, o.offset⟩).toNat)
  | .wrExp2InvW o => (.sel, (Selector.word ⟨.write, .word, .exp2, o.offset⟩).toNat)
  | .rdSpuStatB o => (.sel, (Selector.word ⟨.read, .byte, .spu, o.offset⟩).toNat)
  | .rdSpuStatH o => (.sel, (Selector.word ⟨.read, .halfWord, .spu, o.offset⟩).toNat)
  | .rdSpuStatW o => (.sel, (Selector.word ⟨.read, .word, .spu, o.offset⟩).toNat)
  | .wrSpuFifoB o => (.sel, (Selector.word ⟨.write, .byte, .spu, o.offset⟩).toNat)
  | .wrSpuFifoH o => (.sel, (Selector.word ⟨.write, .halfWord, .spu, o.offset⟩).toNat)
  | .wrSpuFifoW o => (.sel, (Selector.word ⟨.write, .word, .spu, o.offset⟩).toNat)
  | .wrSpuCtrlB o => (.sel, (Selector.word ⟨.write, .byte, .spu, o.offset⟩).toNat)
  | .wrSpuCtrlH o => (.sel, (Selector.word ⟨.write, .halfWord, .spu, o.offset⟩).toNat)
  | .wrSpuCtrlW o => (.sel, (Selector.word ⟨.write, .word, .spu, o.offset⟩).toNat)
  | .rdSpuB o => (.sel, (Selector.word ⟨.read, .byte, .spu, o.offset⟩).toNat)
  | .rdSpuH o => (.sel, (Selector.word ⟨.read, .halfWord, .spu, o.offset⟩).toNat)
  | .rdSpuW o => (.sel, (Selector.word ⟨.read, .word, .spu, o.offset⟩).toNat)
  | .wrSpuB o => (.sel, (Selector.word ⟨.write, .byte, .spu, o.offset⟩).toNat)
  | .wrSpuH o => (.sel, (Selector.word ⟨.write, .halfWord, .spu, o.offset⟩).toNat)
  | .wrSpuW o => (.sel, (Selector.word ⟨.write, .word, .spu, o.offset⟩).toNat)
  | .rdDmaW o _ => (.sel, (Selector.word ⟨.read, .word, .dma, o.offset⟩).toNat)
  | .wrDmaW o => (.sel, (Selector.word ⟨.write, .word, .dma, o.offset⟩).toNat)
  | .rdDmaB o => (.sel, (Selector.word ⟨.read, .byte, .dma, o.offset⟩).toNat)
  | .rdDmaH o => (.sel, (Selector.word ⟨.read, .halfWord, .dma, o.offset⟩).toNat)
  | .wrDmaB o => (.sel, (Selector.word ⟨.write, .byte, .dma, o.offset⟩).toNat)
  | .wrDmaH o => (.sel, (Selector.word ⟨.write, .halfWord, .dma, o.offset⟩).toNat)
  | .rdInvB o => (.sel, (Selector.word ⟨.read, .byte, .invalid, o.offset⟩).toNat)
  | .rdInvH o => (.sel, (Selector.word ⟨.read, .halfWord, .invalid, o.offset⟩).toNat)
  | .rdInvW o => (.sel, (Selector.word ⟨.read, .word, .invalid, o.offset⟩).toNat)
  | .wrInvB o => (.sel, (Selector.word ⟨.write, .byte, .invalid, o.offset⟩).toNat)
  | .wrInvH o => (.sel, (Selector.word ⟨.write, .halfWord, .invalid, o.offset⟩).toNat)
  | .wrInvW o => (.sel, (Selector.word ⟨.write, .word, .invalid, o.offset⟩).toNat)
  | .xferIdleSel => (.xsel, (xselWord .idle cmdSelect).toNat)
  | .xferIdleOther input => (.xsel, (xselWord .idle input).toNat)
  | .xferReadyPoll => (.xsel, (xselWord .ready cmdPoll).toNat)
  | .xferReadyOther input => (.xsel, (xselWord .ready input).toNat)
  | .xferIdmsb input => (.xsel, (xselWord .idMsb input).toNat)
  | .xferBtnlsb input => (.xsel, (xselWord .buttonsLsb input).toNat)
  | .xferBtnmsb input => (.xsel, (xselWord .buttonsMsb input).toNat)
  | .xferDeltax input _ => (.xsel, (xselWord .deltaX input).toNat)
  | .xferDeltay input => (.xsel, (xselWord .deltaY input).toNat)
  | .preset => (.pcmd, (pcmdWord 1 0).toNat)
  | .setbtn identity pressed => (.pcmd, (pcmdWord 2 (buttonArg identity pressed)).toNat)
  | .setbtnc code pressed => (.pcmd, (pcmdWord 3 (buttonArg code pressed)).toNat)
  | .psave => (.pcmd, (pcmdWord 4 0).toNat)
  | .pload apply _ => (.pcmd, (pcmdWord 5 (ploadArg apply)).toNat)
  | .gettype => (.pcmd, (pcmdWord 6 0).toNat)
  | .getvmc => (.pcmd, (pcmdWord 7 0).toNat)
  | .loadbios _ => (.hcmd, (hcmdWord 0).toNat)
  | .bsave => (.hcmd, (hcmdWord 1).toNat)
  | .bload _ => (.hcmd, (hcmdWord 2).toNat)

/-- The RAM and BIOS rows. -/
def ramBiosRows : List Row := [
  ⟨.sel, 0x00000000000, 0xFFF00000000, "RD.RAM.B"⟩,
  ⟨.sel, 0x01000000000, 0xFFF00000000, "RD.RAM.H"⟩,
  ⟨.sel, 0x02000000000, 0xFFF00000000, "RD.RAM.W"⟩,
  ⟨.sel, 0x10000000000, 0xFFF00000000, "WR.RAM.B"⟩,
  ⟨.sel, 0x11000000000, 0xFFF00000000, "WR.RAM.H"⟩,
  ⟨.sel, 0x12000000000, 0xFFF00000000, "WR.RAM.W"⟩,
  ⟨.sel, 0x00100000000, 0xFFF00000000, "RD.BIOS.B"⟩,
  ⟨.sel, 0x01100000000, 0xFFF00000000, "RD.BIOS.H"⟩,
  ⟨.sel, 0x02100000000, 0xFFF00000000, "RD.BIOS.W"⟩,
  ⟨.sel, 0x10100000000, 0xFFF00000000, "WR.BIOS.B"⟩,
  ⟨.sel, 0x11100000000, 0xFFF00000000, "WR.BIOS.H"⟩,
  ⟨.sel, 0x12100000000, 0xFFF00000000, "WR.BIOS.W"⟩]

/-- The EXP2 rows. -/
def exp2Rows : List Row := [
  ⟨.sel, 0x00200000021, 0xFFFFFFFFFFF, "RD.EXP2.STATUS.B"⟩,
  ⟨.sel, 0x01200000021, 0xFFFFFFFFFFF, "RD.EXP2.STATUS.H"⟩,
  ⟨.sel, 0x02200000021, 0xFFFFFFFFFFF, "RD.EXP2.STATUS.W"⟩,
  ⟨.sel, 0x10200000023, 0xFFFFFFFFFFF, "WR.EXP2.TTY.B"⟩,
  ⟨.sel, 0x11200000023, 0xFFFFFFFFFFF, "WR.EXP2.TTY.H"⟩,
  ⟨.sel, 0x12200000023, 0xFFFFFFFFFFF, "WR.EXP2.TTY.W"⟩,
  ⟨.sel, 0x10200000041, 0xFFFFFFFFFFF, "WR.EXP2.POST.B"⟩,
  ⟨.sel, 0x11200000041, 0xFFFFFFFFFFF, "WR.EXP2.POST.H"⟩,
  ⟨.sel, 0x12200000041, 0xFFFFFFFFFFF, "WR.EXP2.POST.W"⟩,
  ⟨.sel, 0x00200000000, 0xFFF00000000, "RD.EXP2.INV.B"⟩,
  ⟨.sel, 0x01200000000, 0xFFF00000000, "RD.EXP2.INV.H"⟩,
  ⟨.sel, 0x02200000000, 0xFFF00000000, "RD.EXP2.INV.W"⟩,
  ⟨.sel, 0x10200000000, 0xFFF00000000, "WR.EXP2.INV.B"⟩,
  ⟨.sel, 0x11200000000, 0xFFF00000000, "WR.EXP2.INV.H"⟩,
  ⟨.sel, 0x12200000000, 0xFFF00000000, "WR.EXP2.INV.W"⟩]

/-- The SPU rows. -/
def spuRows : List Row := [
  ⟨.sel, 0x003000001AE, 0xFFFFFFFFFFF, "RD.SPU.STAT.B"⟩,
  ⟨.sel, 0x013000001AE, 0xFFFFFFFFFFF, "RD.SPU.STAT.H"⟩,
  ⟨.sel, 0x023000001AE, 0xFFFFFFFFFFF, "RD.SPU.STAT.W"⟩,
  ⟨.sel, 0x103000001A8, 0xFFFFFFFFFFF, "WR.SPU.FIFO.B"⟩,
  ⟨.sel, 0x113000001A8, 0xFFFFFFFFFFF, "WR.SPU.FIFO.H"⟩,
  ⟨.sel, 0x123000001A8, 0xFFFFFFFFFFF, "WR.SPU.FIFO.W"⟩,
  ⟨.sel, 0x103000001AA, 0xFFFFFFFFFFF, "WR.SPU.CTRL.B"⟩,
  ⟨.sel, 0x113000001AA, 0xFFFFFFFFFFF, "WR.SPU.CTRL.H"⟩,
  ⟨.sel, 0x123000001AA, 0xFFFFFFFFFFF, "WR.SPU.CTRL.W"⟩,
  ⟨.sel, 0x00300000000, 0xFFF00000000, "RD.SPU.B"⟩,
  ⟨.sel, 0x01300000000, 0xFFF00000000, "RD.SPU.H"⟩,
  ⟨.sel, 0x02300000000, 0xFFF00000000, "RD.SPU.W"⟩,
  ⟨.sel, 0x10300000000, 0xFFF00000000, "WR.SPU.B"⟩,
  ⟨.sel, 0x11300000000, 0xFFF00000000, "WR.SPU.H"⟩,
  ⟨.sel, 0x12300000000, 0xFFF00000000, "WR.SPU.W"⟩]

/-- The DMA and invalid rows. -/
def dmaInvalidRows : List Row := [
  ⟨.sel, 0x02400000000, 0xFFF00000000, "RD.DMA.W"⟩,
  ⟨.sel, 0x12400000000, 0xFFF00000000, "WR.DMA.W"⟩,
  ⟨.sel, 0x00400000000, 0xFFF00000000, "RD.DMA.B"⟩,
  ⟨.sel, 0x01400000000, 0xFFF00000000, "RD.DMA.H"⟩,
  ⟨.sel, 0x10400000000, 0xFFF00000000, "WR.DMA.B"⟩,
  ⟨.sel, 0x11400000000, 0xFFF00000000, "WR.DMA.H"⟩,
  ⟨.sel, 0x00700000000, 0xFFF00000000, "RD.INV.B"⟩,
  ⟨.sel, 0x01700000000, 0xFFF00000000, "RD.INV.H"⟩,
  ⟨.sel, 0x02700000000, 0xFFF00000000, "RD.INV.W"⟩,
  ⟨.sel, 0x10700000000, 0xFFF00000000, "WR.INV.B"⟩,
  ⟨.sel, 0x11700000000, 0xFFF00000000, "WR.INV.H"⟩,
  ⟨.sel, 0x12700000000, 0xFFF00000000, "WR.INV.W"⟩]

/-- The transfer and peripheral command rows. -/
def peripheralRows : List Row := [
  ⟨.xsel, 0x001, 0xFFF, "XFER.IDLE.SEL"⟩,
  ⟨.xsel, 0x000, 0xF00, "XFER.IDLE.OTHER"⟩,
  ⟨.xsel, 0x142, 0xFFF, "XFER.READY.POLL"⟩,
  ⟨.xsel, 0x100, 0xF00, "XFER.READY.OTHER"⟩,
  ⟨.xsel, 0x200, 0xF00, "XFER.IDMSB"⟩,
  ⟨.xsel, 0x300, 0xF00, "XFER.BTNLSB"⟩,
  ⟨.xsel, 0x400, 0xF00, "XFER.BTNMSB"⟩,
  ⟨.xsel, 0x500, 0xF00, "XFER.DELTAX"⟩,
  ⟨.xsel, 0x600, 0xF00, "XFER.DELTAY"⟩,
  ⟨.pcmd, 0x1000, 0xF000, "PRESET"⟩,
  ⟨.pcmd, 0x2000, 0xF000, "SETBTN"⟩,
  ⟨.pcmd, 0x3000, 0xF000, "SETBTNC"⟩,
  ⟨.pcmd, 0x4000, 0xF000, "PSAVE"⟩,
  ⟨.pcmd, 0x5000, 0xF000, "PLOAD"⟩,
  ⟨.pcmd, 0x6000, 0xF000, "GETTYPE"⟩,
  ⟨.pcmd, 0x7000, 0xF000, "GETVMC"⟩]

/-- The host command rows. -/
def hostRows : List Row := [
  ⟨.hcmd, 0x00, 0xF0, "LOADBIOS"⟩,
  ⟨.hcmd, 0x10, 0xF0, "BSAVE"⟩,
  ⟨.hcmd, 0x20, 0xF0, "BLOAD"⟩]

/-- spec/opcode_table.json, 73 rows, those of one format in priority order (30 R95). -/
def opcodeTable : List Row :=
  ramBiosRows ++ exp2Rows ++ spuRows ++ dmaInvalidRows ++ peripheralRows ++ hostRows

/-- The first row of a format whose `(word AND mask) = match` (30 R95). -/
def firstRow (f : Format) (word : Nat) : Option Row :=
  opcodeTable.find? fun r => r.format = f && (word &&& r.mask) == r.pattern

/-! ## Table words for the host -/

/-- `n` zero bytes: the out-of-band operands of a table word (log 10). -/
def zeroBytes (n : Nat) : Bytes := [⟨n, 0⟩]

/-- An address whose offset in the region is the selector's, in the first mirror; for `invalid` the offset itself (30 R83). -/
def Config.busAddrOf (c : Config) (r : Region) (offset : Word) : Word :=
  match c.window? r with
  | some w => w.base + offset
  | none => offset

/-- The request for a `SEL` table word, its carrier 0 and its two addresses equal (30 R82; log 10, log 11). -/
def selRequest (c : Config) (word : BitVec 44) : Request :=
  let offset := word.extractLsb' 0 32
  let busAddr := match Region.ofCode (word.extractLsb' 32 4) with
    | some r => c.busAddrOf r offset
    | none => offset
  .sel word busAddr busAddr 0 (Config.dmaAnswer offset)

/-- The request for a `PCMD` table word: five zero bytes of stream (log 10). -/
def pcmdRequest (word : BitVec 16) : Request := .pcmd word (zeroBytes 5) Config.pointerAnswer

/-- The request for an `HCMD` table word: a file of `BIOS_SIZE` zero bytes, a stream of zero bytes that restores all (log 10). -/
def hcmdRequest (c : Config) (word : BitVec 8) : Request :=
  .hcmd word (.bytes (zeroBytes c.biosSize)) (zeroBytes (c.ramSize + c.biosSize + 4))

/-- What a table word of `nbits` bits is (log 12): up to 8 bits an `HCMD`; up to 16 an `XSEL` where bits 15 to 12 are zero and a
`PCMD` where they are not; up to 48 a `SEL`; beyond that a `TXN`. -/
inductive TableWord where
  | xsel (word : BitVec 12)
  | request (r : Request)
  | none
  deriving DecidableEq, Repr

/-- The reading of a table word under a configuration; a word with bits beyond its format is none. -/
def readTableWord (c : Config) (nbits w : Nat) : TableWord :=
  if nbits ≤ 8 then
    if w < 2 ^ 8 then .request (hcmdRequest c (BitVec.ofNat 8 w)) else .none
  else if nbits ≤ 16 then
    if w < 2 ^ 12 then .xsel (BitVec.ofNat 12 w)
    else if w < 2 ^ 16 then .request (pcmdRequest (BitVec.ofNat 16 w)) else .none
  else if nbits ≤ 48 then
    if w < 2 ^ 44 then .request (selRequest c (BitVec.ofNat 44 w)) else .none
  else if w < 2 ^ 72 then
    let word := BitVec.ofNat 72 w
    .request (.txn word (word.extractLsb' 32 32) (Config.dmaAnswer (word.extractLsb' 32 32)))
  else .none

/-- The instruction of a decoding that succeeds. -/
def decoded (r : Except DecodeError Instr) : Option Instr :=
  match r with
  | .ok i => some i
  | .error _ => none

/-- The instruction the decoder reads from a table word, under the default parameters. The row an `XSEL` word names fixes the
transfer state; no other row depends on it. -/
def decodeTableWord (nbits w : Nat) : Option Instr :=
  match readTableWord Config.default nbits w with
  | .xsel word => decoded (decodeXsel word Config.pointerAnswer)
  | .request r => decoded (decode Config.default .idle r)
  | .none => none

end Sys2Proof
end

