-- ==== Sys2Proof/Machine/State.lean ====
section
/-! DEFINITION. The state of the two blocks as plain data (10 R28 to R36), the outputs and events a step adds (00 R12, 30 R87,
60 R270), the reasons a step can stop, and construction (70 R300, R301). -/

namespace Sys2Proof.Machine

/-- What an offset of a buffer that no cell lists reads as. -/
inductive Fill where
  /-- A buffer whose bytes are all known: an unlisted byte is 0x00. -/
  | zero
  /-- Unspecified contents number `draw`: an unlisted byte is a free value (log 3, log 4). -/
  | unspecified (draw : Nat)
  deriving DecidableEq, Repr

/-- A byte buffer (10 R28, R29): the offsets that hold a known byte other than what the fill gives, strictly rising. -/
structure Memory where
  fill : Fill
  cells : List Host.Cell
  deriving DecidableEq, Repr

/-- An event of the run's history, in issue order: the three diagnostic log events (00 R12), the calls to the DMA
collaborator (43 R165) and the pointer samples (46 R213). -/
inductive Event where
  /-- `LogInvalid`; the value is the attempted carrier of a write (44 R180). -/
  | logInvalid (direction : Direction) (width : Width) (cpuAddr busAddr : Word) (value : Option Word)
  /-- `LogTTY` (41 R133). -/
  | logTty (line : List Byte)
  /-- `LogPOST` (41 R135). -/
  | logPost (code : BitVec 4)
  /-- `DmaRegRead(offset)` (43 R166). -/
  | dmaRegRead (offset : Word)
  /-- `DmaRegWrite(offset, value)` (43 R167). -/
  | dmaRegWrite (offset value : Word)
  /-- One `PointerPosition()` call and its answer (46 R213). -/
  | pointerPosition (x y : Int)
  deriving DecidableEq, Repr

/-- What an operation returns (30 R87). -/
inductive Response where
  /-- The operation returns nothing. -/
  | nothing
  /-- A bus read: `handled` and the 32-bit carrier. -/
  | read (handled : Bool) (carrier : Word)
  /-- A bus write: `handled`. -/
  | write (handled : Bool)
  /-- A transfer: `ack` and the output byte. -/
  | transfer (ack : Bool) (output : Byte)
  /-- `LOADBIOS`: success. -/
  | loaded (ok : Bool)
  /-- `GETTYPE`. -/
  | deviceType (type : DeviceType)
  /-- `GETVMC`. -/
  | motorCount (n : Nat)
  /-- `PSAVE`, `BSAVE`: the bytes appended to the stream. -/
  | saved (bytes : Bytes)
  /-- `PLOAD`, `BLOAD`: how many bytes of the stream were consumed. -/
  | restored (consumed : Nat)
  deriving DecidableEq, Repr

/-- A condition of 60 R270 that an operation raised while completing. `ButtonCodeIgnored` (code 4) leaves no record and needs no
constructor (47 R233, 60 R274); `Refused` (code 5) is no state: see `Refusal`. -/
inductive Condition where
  /-- Code 1: normal completion, logged (60 R271). -/
  | invalidAccess
  /-- Code 2: the block has stopped (60 R272), with the access that stopped it. -/
  | dmaWidthAssert (direction : Direction) (width : Width) (busAddr : Word)
  /-- Code 3 (60 R273). -/
  | biosLoadFailure
  deriving DecidableEq, Repr

/-- The result of one operation: what it returns, and the condition its rule says it raised, if any (log 14). -/
structure Result where
  response : Response
  condition : Option Condition
  deriving DecidableEq, Repr

/-- The reasons a step can end in a fault: none. The one stop of the hardware, `DmaWidthAssert`, is a next state with
`bus_failed` set (43 R168; log 13). -/
inductive Fault where
  deriving DecidableEq, Repr

/-- The reasons the machine gives an operation no step (60 R275). Each is safe: a run that contains it proves nothing. -/
inductive Refusal where
  /-- Raised by an arm of `exec` whose instruction has no meaning yet; safe. No arm raises it. -/
  | notModelled (mnemonic : String)
  /-- Raised by `step` under a configuration that fails 00 R8; safe. -/
  | illFormedConfig
  /-- Raised by `step` on a word the decoder refuses (30 R96, R98); safe. -/
  | undecodable (reason : DecodeError)
  /-- Raised by every operation on block BUS while `bus_failed` (70 R311); safe. -/
  | busFailed
  /-- Raised by bus transactions and `BSAVE` while not `bus_usable` (70 R311); safe. -/
  | busNotUsable
  /-- Raised by a RAM or BIOS access whose bytes run past the buffer's end (20 R58); safe. -/
  | outOfBounds
  /-- Raised by an append to a full TTY buffer, which only a bounded `TTY_BUF_CAP` has (92 D15; log 17); safe. -/
  | ttyBufferFull
  /-- Raised by `SETBTN` on an identity the configuration has no bit for (30 R98); safe. -/
  | noSuchButton
  /-- Raised by `PLOAD` and `BLOAD` on a stream too short (48 R254, R259); safe. -/
  | shortStream
  /-- Raised by `PLOAD` on a stream whose state code is above 6 (48 R254); safe. -/
  | noSuchState
  deriving DecidableEq, Repr

/-- The state of both blocks, the parameters, and the model's own record of inputs and outputs (log 1, log 9, log 14). -/
structure State where
  /-- The parameters of 00 R5 and R7; no operation writes them. -/
  config : Config
  /-- `RAM` (10 R28). -/
  ram : Memory
  /-- `BIOS` (10 R29). -/
  bios : Memory
  /-- `bus_usable` (10 R30). -/
  busUsable : Bool
  /-- `bus_failed` (10 R32). -/
  busFailed : Bool
  /-- `tty_line_buffer`, in arrival order (10 R31). -/
  ttyLineBuffer : List Byte
  /-- `transfer_state` (10 R33). -/
  transferState : TransferState
  /-- `button_state`, active-low (10 R34). -/
  buttonState : BitVec 16
  /-- `delta_x`, the two's-complement byte (10 R35). -/
  deltaX : BitVec 8
  /-- `delta_y`, the two's-complement byte (10 R35). -/
  deltaY : BitVec 8
  /-- `last_host_position_x` (10 R36). -/
  lastHostPositionX : Int
  /-- `last_host_position_y` (10 R36). -/
  lastHostPositionY : Int
  /-- The operations issued and not yet run, next first (log 9). -/
  requests : List Request
  /-- The events so far, oldest first (log 14). -/
  history : List Event
  /-- The results so far, oldest first (log 14). -/
  outputs : List Result
  /-- How many unspecified contents have been handed out (log 4). -/
  draws : Nat
  deriving DecidableEq, Repr

/-- Construction of both blocks under a configuration, with the answer of the one `PointerPosition()` call it makes
(70 R300, R301; 10 R40). -/
def State.construct (c : Config) (pointer : Position) : State where
  config := c
  ram := ⟨.unspecified 0, []⟩
  bios := ⟨.unspecified 1, []⟩
  busUsable := false
  busFailed := false
  ttyLineBuffer := []
  transferState := .idle
  buttonState := c.buttonStateInit
  deltaX := c.deltaInit
  deltaY := c.deltaInit
  lastHostPositionX := c.toCoordinate pointer.x
  lastHostPositionY := c.toCoordinate pointer.y
  requests := []
  history := []
  outputs := []
  draws := 2

/-- The machine right after reset, which is construction (10 R40): the default parameters, and the pointer wherever it was. -/
def State.reset : State := State.construct Config.default Config.constructionPointer

end Sys2Proof.Machine
end

