-- ==== Sys2Proof/Machine/Operands.lean ====
section
/-! DEFINITION. Operand forms: access widths (20 R59), the carrier on its way in and out (30 R91, R93), the peripheral's bytes
(30 R94), byte sequences (log 16), and reading and writing a buffer, where byte order is decided once (20 R55, R56). -/

namespace Sys2Proof

/-- `bytes(w)` (00 R9). -/
def Width.bytes : Width → Nat
  | .byte => 1
  | .halfWord => 2
  | .word => 4

/-- `bits(w)` (00 R9). -/
def Width.bits (w : Width) : Nat := 8 * w.bytes

/-- `v[bits(w)-1:0]`, zero-extended into the 32-bit carrier (20 R59). -/
def truncTo (w : Width) (v : Word) : Word := (v.setWidth w.bits).setWidth 32

/-- The TTY character, `wdata[7:0]` (41 R133). -/
def ttyChar (wdata : Word) : Byte := wdata.extractLsb' 0 8

/-- The POST code, `wdata[3:0]` (41 R135). -/
def postCode (wdata : Word) : BitVec 4 := wdata.extractLsb' 0 4

/-- The low byte of a 16-bit value, the one that goes out first (30 R94). -/
def lowByte (v : BitVec 16) : Byte := v.extractLsb' 0 8

/-- The high byte of a 16-bit value. -/
def highByte (v : BitVec 16) : Byte := v.extractLsb' 8 8

/-- `clamp(v, lo, hi)` (00 R9). -/
def clamp (v lo hi : Int) : Int := if v < lo then lo else if hi < v then hi else v

/-- A motion delta, clamped to the signed byte range, as its two's-complement byte (46 R213, 30 R94). -/
def deltaByte (d : Int) : BitVec 8 := BitVec.ofInt 8 (clamp d deltaMin deltaMax)

/-! ## Byte sequences (log 16) -/

/-- The bytes of a sequence, in order. -/
def Bytes.toList (b : Bytes) : List Byte := b.flatMap fun r => List.replicate r.count r.byte

/-- How many bytes a sequence has. -/
def Bytes.size (b : Bytes) : Nat := (b.map Run.count).sum

/-- A list of bytes as a sequence. -/
def Bytes.ofList (l : List Byte) : Bytes := l.map fun x => ⟨1, x⟩

/-- The next `n` bytes of a sequence. -/
def Bytes.take : Nat → Bytes → Bytes
  | _, [] => []
  | n, r :: rest => if n ≤ r.count then [⟨n, r.byte⟩] else r :: Bytes.take (n - r.count) rest

/-- What follows the next `n` bytes of a sequence. -/
def Bytes.drop : Nat → Bytes → Bytes
  | _, [] => []
  | n, r :: rest => if n ≤ r.count then ⟨r.count - n, r.byte⟩ :: rest else Bytes.drop (n - r.count) rest

/-- The value of a list of bytes, low byte first. -/
def littleEndian : List Byte → Nat
  | [] => 0
  | b :: rest => b.toNat + 256 * littleEndian rest

/-- `u32le`: four bytes, low byte first (48 R258). The value is taken modulo 2^32 (log 20). -/
def u32le (n : Nat) : List Byte := (List.range 4).map fun i => (BitVec.ofNat 32 n).extractLsb' (8 * i) 8

namespace Machine

/-! ## Buffers (10 R28, R29) -/

/-- The byte at an unlisted offset. -/
def Fill.byteAt : Fill → Nat → Byte
  | .zero, _ => 0
  | .unspecified draw, o => Config.unspecifiedByte draw o

/-- The fill is known to give this byte at every offset. -/
def Fill.knownToBe : Fill → Byte → Bool
  | .zero, b => b == 0
  | .unspecified _, _ => false

/-- The byte listed at an offset. -/
def lookupCell (o : Nat) : List Host.Cell → Option Byte
  | [] => none
  | (k, v) :: rest => if k = o then some v else lookupCell o rest

/-- The cells with the byte at an offset set. -/
def setCell (o : Nat) (b : Byte) : List Host.Cell → List Host.Cell
  | [] => [(o, b)]
  | (k, v) :: rest =>
    if o < k then (o, b) :: (k, v) :: rest else if o = k then (o, b) :: rest else (k, v) :: setCell o b rest

/-- The cells with nothing listed at an offset. -/
def dropCell (o : Nat) (cells : List Host.Cell) : List Host.Cell := cells.filter fun c => c.1 != o

/-- Strictly rising offsets, each at least `low`. -/
def risingFrom (low : Nat) : List Host.Cell → Bool
  | [] => true
  | (k, _) :: rest => decide (low ≤ k) && risingFrom (k + 1) rest

/-- The canonical form: strictly rising offsets below the buffer's size, and no cell that says what the fill says. -/
def Memory.wf (size : Nat) (m : Memory) : Bool :=
  risingFrom 0 m.cells && m.cells.all fun c => decide (c.1 < size) && !m.fill.knownToBe c.2

/-- The byte at an offset. -/
def Memory.read (m : Memory) (o : Nat) : Byte := (lookupCell o m.cells).getD (m.fill.byteAt o)

/-- The buffer with the byte at an offset written. -/
def Memory.write (m : Memory) (o : Nat) (b : Byte) : Memory :=
  if m.fill.knownToBe b then { m with cells := dropCell o m.cells } else { m with cells := setCell o b m.cells }

/-- `LoadLE(buf, o, n)` (00 R10). -/
def Memory.loadLE (m : Memory) (o : Nat) : Nat → Nat
  | 0 => 0
  | n + 1 => m.loadLE o n + (m.read (o + n)).toNat * 2 ^ (8 * n)

/-- `StoreLE(buf, o, n, v)` (00 R10). -/
def Memory.storeLE (m : Memory) (o : Nat) (v : Word) : Nat → Memory
  | 0 => m
  | n + 1 => (m.storeLE o v n).write (o + n) (v.extractLsb' (8 * n) 8)

/-- The cells of a byte sequence laid out from an offset; zero bytes need none. -/
def cellsFrom (o : Nat) : Bytes → List Host.Cell
  | [] => []
  | r :: rest =>
    (if r.byte = 0 then [] else (List.range r.count).map fun i => (o + i, r.byte)) ++ cellsFrom (o + r.count) rest

/-- The buffer that holds a byte sequence. -/
def Memory.ofBytes (b : Bytes) : Memory := ⟨.zero, cellsFrom 0 b⟩

/-- The first `size` bytes of a buffer, in offset order (48 R258). -/
def Memory.dump (m : Memory) (size : Nat) : Bytes := Bytes.ofList ((List.range size).map m.read)

end Machine

end Sys2Proof
end

