-- ==== Sys2Proof/Machine/Flags.lean ====
section
/-! DEFINITION. The two status outputs (10 R22): `handled` of every completed access, and `ack` of every transfer. Neither is
stored. -/

namespace Sys2Proof.Machine

/-- `handled`: always true (10 R22, 92 D22). -/
def handledFlag : Bool := true

/-- `ack` of a row that moves forward along the cycle: more bytes follow in this exchange (46 R200, R212). -/
def moreBytesFollow : Bool := true

/-- `ack` of a row that ends the exchange, or finds none begun (46 R200, R212). -/
def lastByteOfExchange : Bool := false

/-- The part of a read's carrier that the CPU side uses, `carrier[bits(w)-1:0]` (20 R59, 30 R93). -/
def cpuValue (w : Width) (carrier : Word) : Word := truncTo w carrier

/-- The code numbers of the conditions that are recorded (60 R270). -/
def Condition.code : Condition → Nat
  | .invalidAccess => 1
  | .dmaWidthAssert .. => 2
  | .biosLoadFailure => 3

end Sys2Proof.Machine
end

