-- ==== Sys2Proof/Machine/Ops.lean ====
section
/-! DEFINITION. The operations the meanings share: returning a result, logging, the gate of block BUS (70 R311), the two ways an
exception is taken (`InvalidAccess`, 44 R180, and `DmaWidthAssert`, 43 R168; there is no return from either, 60 R283), and the
buffer accesses (40). -/

namespace Sys2Proof.Machine

/-- The outcome of one operation. -/
abbrev Effect := Host.Outcome State Fault Refusal

/-- The operation returns this and raises that (30 R87, 60 R270). -/
def State.emit (s : State) (r : Response) (c : Option Condition) : State := { s with outputs := s.outputs ++ [⟨r, c⟩] }

/-- One event more in the history (00 R12, R13). -/
def State.record (s : State) (e : Event) : State := { s with history := s.history ++ [e] }

/-- A bus read that completes with this carrier. -/
def State.readDone (s : State) (carrier : Word) : State := s.emit (.read handledFlag carrier) none

/-- A bus write that completes. -/
def State.writeDone (s : State) : State := s.emit (.write handledFlag) none

/-- What an operation on block BUS needs at the least: `bus_failed = false` (70 R311, 60 R279). -/
def whenAlive (s : State) (k : Effect) : Effect := if s.busFailed then .refused .busFailed else k

/-- What a bus transaction and `BSAVE` need: `bus_failed = false` and `bus_usable = true`, in that order (60 R279). -/
def whenReady (s : State) (k : Effect) : Effect := whenAlive s (if s.busUsable then k else .refused .busNotUsable)

/-! ## Exceptions -/

/-- `InvalidAccess` of a read: one `LogInvalid`, the carrier all ones, normal completion (44 R180). -/
def invalidRead (w : Width) (o : ReadOperands) (s : State) : Effect :=
  whenReady s (.next ((s.record (.logInvalid .read w o.cpuAddr o.busAddr none)).emit
    (.read handledFlag invalidReadValue) (some .invalidAccess)))

/-- `InvalidAccess` of a write: one `LogInvalid` with the whole carrier, nothing stored, normal completion (44 R180). -/
def invalidWrite (w : Width) (o : WriteOperands) (s : State) : Effect :=
  whenReady s (.next ((s.record (.logInvalid .write w o.cpuAddr o.busAddr (some o.wdata))).emit
    (.write handledFlag) (some .invalidAccess)))

/-- `DmaWidthAssert`: the block has failed, and nothing is returned, forwarded or logged (43 R168; log 13). -/
def raiseDmaWidthAssert (d : Direction) (w : Width) (busAddr : Word) (s : State) : Effect :=
  whenReady s (.next ({ s with busFailed := true }.emit .nothing (some (.dmaWidthAssert d w busAddr))))

/-! ## Buffer accesses (40 R110 to R116, R120) -/

/-- Read `bytes(w)` bytes of a buffer at an offset, zero-extended; refused where they run past its end (20 R58). -/
def readBuffer (m : Memory) (size : Nat) (w : Width) (offset : Word) (s : State) : Effect :=
  whenReady s (if offset.toNat + w.bytes ≤ size then
      .next (s.readDone (BitVec.ofNat 32 (m.loadLE offset.toNat w.bytes)))
    else .refused .outOfBounds)

/-- `RD.RAM.w` (40 R110). -/
def ramRead (w : Width) (o : ReadOperands) (s : State) : Effect := readBuffer s.ram s.config.ramSize w o.offset s

/-- `RD.BIOS.w` (40 R114). -/
def biosRead (w : Width) (o : ReadOperands) (s : State) : Effect := readBuffer s.bios s.config.biosSize w o.offset s

/-- `WR.RAM.w` (40 R112). -/
def ramWrite (w : Width) (o : WriteOperands) (s : State) : Effect :=
  whenReady s (if o.offset.toNat + w.bytes ≤ s.config.ramSize then
      .next { s with ram := s.ram.storeLE o.offset.toNat o.wdata w.bytes }.writeDone
    else .refused .outOfBounds)

/-- `WR.BIOS.w` under either policy (40 R116). -/
def biosWrite (w : Width) (o : WriteOperands) (s : State) : Effect :=
  whenReady s (match s.config.biosWritePolicy with
    | .ignore => .next s.writeDone
    | .store =>
      if o.offset.toNat + w.bytes ≤ s.config.biosSize then
        .next { s with bios := s.bios.storeLE o.offset.toNat o.wdata w.bytes }.writeDone
      else .refused .outOfBounds)

end Sys2Proof.Machine
end

