-- ==== Sys2Proof/Machine/BiosLoad.lean ====
section
/-! DEFINITION. BIOS image load and patch (45). -/

namespace Sys2Proof.Machine

/-- The patches applied in list order, each stored little-endian at its offset (45 R193). -/
def applyPatches (patches : List (Nat × Word)) (m : Memory) : Memory :=
  patches.foldl (fun m p => m.storeLE p.1 p.2 4) m

/-- A load that fails, for any of the three causes: the bus is unusable and the image unspecified (45 R190 to R192; log 4). -/
def loadFailure (s : State) : State :=
  { s with bios := ⟨.unspecified s.draws, []⟩, busUsable := false, draws := s.draws + 1 }.emit
    (.loaded false) (some .biosLoadFailure)

/-- A load of a file of the expected size: the file's bytes, the patches over them, the bus usable (45 R190). -/
def loadSuccess (content : Bytes) (s : State) : State :=
  { s with bios := applyPatches s.config.biosPatches (Memory.ofBytes content), busUsable := true }.emit (.loaded true) none

/-- `LOADBIOS` (45 R190, R194); refused while `bus_failed` (70 R311). -/
def execLoadbios (file : FileAnswer) (s : State) : Effect :=
  whenAlive s (.next (match file with
    | .absent => loadFailure s
    | .shortRead _ => loadFailure s
    | .bytes content => if Bytes.size content = s.config.biosSize then loadSuccess content s else loadFailure s))

end Sys2Proof.Machine
end

