-- ==== Sys2Proof/Machine/Dma.lean ====
section
/-! DEFINITION. The DMA register window (43): forwarded at word width, an assertion at the others. -/

namespace Sys2Proof.Machine

/-- `RD.DMA.W`: the offset in, the collaborator's 32 bits out; the offset is not checked (43 R165, R166, R169). -/
def execRdDmaW (o : ReadOperands) (answer : Word) (s : State) : Effect :=
  whenReady s (.next ((s.record (.dmaRegRead o.offset)).readDone answer))

/-- `WR.DMA.W`: the offset and all 32 bits, unchanged (43 R165, R167, R169). -/
def execWrDmaW (o : WriteOperands) (s : State) : Effect :=
  whenReady s (.next (s.record (.dmaRegWrite o.offset o.wdata)).writeDone)

/-- `RD.DMA.B` (43 R168). -/
def execRdDmaB (o : ReadOperands) (s : State) : Effect := raiseDmaWidthAssert .read .byte o.busAddr s

/-- `RD.DMA.H` (43 R168). -/
def execRdDmaH (o : ReadOperands) (s : State) : Effect := raiseDmaWidthAssert .read .halfWord o.busAddr s

/-- `WR.DMA.B` (43 R168). -/
def execWrDmaB (o : WriteOperands) (s : State) : Effect := raiseDmaWidthAssert .write .byte o.busAddr s

/-- `WR.DMA.H` (43 R168). -/
def execWrDmaH (o : WriteOperands) (s : State) : Effect := raiseDmaWidthAssert .write .halfWord o.busAddr s

end Sys2Proof.Machine
end

