-- ==== Sys2Proof/Machine/Exp2.lean ====
section
/-! DEFINITION. Expansion Region 2 (41). No operation depends on the width (41 R130). -/

namespace Sys2Proof.Machine

/-- `RD.EXP2.STATUS.w`: the same value always (41 R131). -/
def statusRead (s : State) : Effect := whenReady s (.next (s.readDone s.config.exp2StatusValue))

/-- The TTY buffer has room for one byte more: always, unless `TTY_BUF_CAP` bounds it (10 R31, 92 D15). -/
def ttyHasRoom (s : State) : Bool :=
  match s.config.ttyBufCap with
  | none => true
  | some cap => decide (s.ttyLineBuffer.length < cap)

/-- A line feed: one `LogTTY`, unless the buffer is empty and `TTY_FLUSH_EMPTY` is false; the buffer is empty after (41 R133). -/
def ttyFlush (s : State) : State :=
  if 0 < s.ttyLineBuffer.length ∨ s.config.ttyFlushEmpty = true then
    { s.record (.logTty s.ttyLineBuffer) with ttyLineBuffer := [] }
  else { s with ttyLineBuffer := [] }

/-- `WR.EXP2.TTY.w` (41 R133). -/
def ttyWrite (o : WriteOperands) (s : State) : Effect :=
  whenReady s (if ttyChar o.wdata = ttyCr then .next s.writeDone
    else if ttyChar o.wdata = ttyLf then .next (ttyFlush s).writeDone
    else if ttyHasRoom s then .next { s with ttyLineBuffer := s.ttyLineBuffer ++ [ttyChar o.wdata] }.writeDone
    else .refused .ttyBufferFull)

/-- `WR.EXP2.POST.w`: one `LogPOST`, otherwise a no-op (41 R135). -/
def postWrite (o : WriteOperands) (s : State) : Effect := whenReady s (.next (s.record (.logPost (postCode o.wdata))).writeDone)

/-- `RD.EXP2.STATUS.B` (41 R131). -/
def execRdExp2StatusB (_ : ReadOperands) (s : State) : Effect := statusRead s

/-- `RD.EXP2.STATUS.H` (41 R131). -/
def execRdExp2StatusH (_ : ReadOperands) (s : State) : Effect := statusRead s

/-- `RD.EXP2.STATUS.W` (41 R131). -/
def execRdExp2StatusW (_ : ReadOperands) (s : State) : Effect := statusRead s

/-- `WR.EXP2.TTY.B` (41 R133). -/
def execWrExp2TtyB (o : WriteOperands) (s : State) : Effect := ttyWrite o s

/-- `WR.EXP2.TTY.H` (41 R133). -/
def execWrExp2TtyH (o : WriteOperands) (s : State) : Effect := ttyWrite o s

/-- `WR.EXP2.TTY.W` (41 R133). -/
def execWrExp2TtyW (o : WriteOperands) (s : State) : Effect := ttyWrite o s

/-- `WR.EXP2.POST.B` (41 R135). -/
def execWrExp2PostB (o : WriteOperands) (s : State) : Effect := postWrite o s

/-- `WR.EXP2.POST.H` (41 R135). -/
def execWrExp2PostH (o : WriteOperands) (s : State) : Effect := postWrite o s

/-- `WR.EXP2.POST.W` (41 R135). -/
def execWrExp2PostW (o : WriteOperands) (s : State) : Effect := postWrite o s

/-- `RD.EXP2.INV.B` (41 R138). -/
def execRdExp2InvB (o : ReadOperands) (s : State) : Effect := invalidRead .byte o s

/-- `RD.EXP2.INV.H` (41 R138). -/
def execRdExp2InvH (o : ReadOperands) (s : State) : Effect := invalidRead .halfWord o s

/-- `RD.EXP2.INV.W` (41 R138). -/
def execRdExp2InvW (o : ReadOperands) (s : State) : Effect := invalidRead .word o s

/-- `WR.EXP2.INV.B` (41 R139). -/
def execWrExp2InvB (o : WriteOperands) (s : State) : Effect := invalidWrite .byte o s

/-- `WR.EXP2.INV.H` (41 R139). -/
def execWrExp2InvH (o : WriteOperands) (s : State) : Effect := invalidWrite .halfWord o s

/-- `WR.EXP2.INV.W` (41 R139). -/
def execWrExp2InvW (o : WriteOperands) (s : State) : Effect := invalidWrite .word o s

end Sys2Proof.Machine
end

