-- ==== Sys2Proof/Machine/Invalid.lean ====
section
/-! DEFINITION. Accesses outside every region (44). -/

namespace Sys2Proof.Machine

/-- `RD.INV.B` (44 R181). -/
def execRdInvB (o : ReadOperands) (s : State) : Effect := invalidRead .byte o s

/-- `RD.INV.H` (44 R181). -/
def execRdInvH (o : ReadOperands) (s : State) : Effect := invalidRead .halfWord o s

/-- `RD.INV.W` (44 R181). -/
def execRdInvW (o : ReadOperands) (s : State) : Effect := invalidRead .word o s

/-- `WR.INV.B` (44 R182). -/
def execWrInvB (o : WriteOperands) (s : State) : Effect := invalidWrite .byte o s

/-- `WR.INV.H` (44 R182). -/
def execWrInvH (o : WriteOperands) (s : State) : Effect := invalidWrite .halfWord o s

/-- `WR.INV.W` (44 R182). -/
def execWrInvW (o : WriteOperands) (s : State) : Effect := invalidWrite .word o s

end Sys2Proof.Machine
end

