-- ==== Sys2Proof/Machine/PeriphControl.lean ====
section
/-! DEFINITION. Peripheral reset, button update and capability metadata (47). -/

namespace Sys2Proof.Machine

/-- `PRESET` (47 R230). -/
def execPreset (s : State) : Effect := .next ({ s with transferState := .idle }.emit .nothing none)

/-- The active-low mask with one button's bit cleared (pressed) or set (released) (47 R232). -/
def setButtonBit (mask : BitVec 16) (bit : Nat) (pressed : Bool) : BitVec 16 :=
  if pressed then mask &&& ~~~((1 : BitVec 16) <<< bit) else mask ||| ((1 : BitVec 16) <<< bit)

/-- A button update by identity (47 R231, R232). -/
def updateButton (identity : Nat) (pressed : Bool) (s : State) : Effect :=
  match s.config.buttonBit[identity]? with
  | some bit => .next ({ s with buttonState := setButtonBit s.buttonState bit pressed }.emit .nothing none)
  | none => .refused .noSuchButton

/-- `SETBTN` (47 R232). -/
def execSetbtn (identity : Byte) (pressed : Bool) (s : State) : Effect := updateButton identity.toNat pressed s

/-- `SETBTNC`: a code below `BUTTON_COUNT` is its identity's update; any other is ignored: no state change, no log event,
no condition (47 R233, 60 R274). -/
def execSetbtnc (code : Byte) (pressed : Bool) (s : State) : Effect :=
  if code.toNat < s.config.buttonCount then
    match s.config.buttonCode[code.toNat]? with
    | some identity => updateButton identity pressed s
    | none => .refused .noSuchButton
  else .next (s.emit .nothing none)

/-- `GETTYPE` (47 R236). -/
def execGettype (s : State) : Effect := .next (s.emit (.deviceType s.config.deviceType) none)

/-- `GETVMC` (47 R237). -/
def execGetvmc (s : State) : Effect := .next (s.emit (.motorCount vibrationMotorCount) none)

end Sys2Proof.Machine
end

