-- ==== Sys2Proof/Machine/RamBios.lean ====
section
/-! DEFINITION. RAM and BIOS accesses (40). -/

namespace Sys2Proof.Machine

/-- `RD.RAM.B` (40 R110). -/
def execRdRamB (o : ReadOperands) (s : State) : Effect := ramRead .byte o s

/-- `RD.RAM.H` (40 R110). -/
def execRdRamH (o : ReadOperands) (s : State) : Effect := ramRead .halfWord o s

/-- `RD.RAM.W` (40 R110). -/
def execRdRamW (o : ReadOperands) (s : State) : Effect := ramRead .word o s

/-- `WR.RAM.B` (40 R112). -/
def execWrRamB (o : WriteOperands) (s : State) : Effect := ramWrite .byte o s

/-- `WR.RAM.H` (40 R112). -/
def execWrRamH (o : WriteOperands) (s : State) : Effect := ramWrite .halfWord o s

/-- `WR.RAM.W` (40 R112). -/
def execWrRamW (o : WriteOperands) (s : State) : Effect := ramWrite .word o s

/-- `RD.BIOS.B` (40 R114). -/
def execRdBiosB (o : ReadOperands) (s : State) : Effect := biosRead .byte o s

/-- `RD.BIOS.H` (40 R114). -/
def execRdBiosH (o : ReadOperands) (s : State) : Effect := biosRead .halfWord o s

/-- `RD.BIOS.W` (40 R114). -/
def execRdBiosW (o : ReadOperands) (s : State) : Effect := biosRead .word o s

/-- `WR.BIOS.B` (40 R116). -/
def execWrBiosB (o : WriteOperands) (s : State) : Effect := biosWrite .byte o s

/-- `WR.BIOS.H` (40 R116). -/
def execWrBiosH (o : WriteOperands) (s : State) : Effect := biosWrite .halfWord o s

/-- `WR.BIOS.W` (40 R116). -/
def execWrBiosW (o : WriteOperands) (s : State) : Effect := biosWrite .word o s

end Sys2Proof.Machine
end

