-- ==== Sys2Proof/Machine/Serialization.lean ====
section
/-! DEFINITION. Save and restore of both blocks (48). -/

namespace Sys2Proof.Machine

/-- The peripheral's snapshot: `button_state` low byte first, `delta_x`, `delta_y`, the state's code (48 R251). -/
def peripheralSnapshot (s : State) : List Byte :=
  [lowByte s.buttonState, highByte s.buttonState, s.deltaX, s.deltaY, BitVec.ofNat 8 s.transferState.code]

/-- `PSAVE` (48 R252). -/
def execPsave (s : State) : Effect := .next (s.emit (.saved (Bytes.ofList (peripheralSnapshot s))) none)

/-- The input-affecting fields of a snapshot, applied only on request (48 R253). -/
def applyInput (apply : Bool) (buttons : BitVec 16) (dx dy : BitVec 8) (s : State) : State :=
  if apply then { s with buttonState := buttons, deltaX := dx, deltaY := dy } else s

/-- `PLOAD`: five bytes are consumed; the state is always restored (48 R253, R254; log 16). -/
def execPload (apply : Bool) (stream : Bytes) (s : State) : Effect :=
  match Bytes.toList (Bytes.take 5 stream) with
  | [buttonsLow, buttonsHigh, dx, dy, code] =>
    match TransferState.ofCode code.toNat with
    | some t =>
      .next ({ applyInput apply (buttonsHigh ++ buttonsLow) dx dy s with transferState := t }.emit (.restored 5) none)
    | none => .refused .noSuchState
  | _ => .refused .shortStream

/-- The bus's snapshot: RAM, BIOS, the length of the TTY buffer, the TTY buffer (48 R258). -/
def busSnapshot (s : State) : Bytes :=
  s.ram.dump s.config.ramSize ++ s.bios.dump s.config.biosSize ++ Bytes.ofList (u32le s.ttyLineBuffer.length ++ s.ttyLineBuffer)

/-- `BSAVE` (48 R258). -/
def execBsave (s : State) : Effect := whenReady s (.next (s.emit (.saved (busSnapshot s)) none))

/-- The fields of a bus snapshot as a stream holds them: RAM, BIOS, and what follows. -/
def splitSnapshot (c : Config) (stream : Bytes) : Bytes × Bytes × Bytes :=
  let afterRam := Bytes.drop c.ramSize stream
  (Bytes.take c.ramSize stream, Bytes.take c.biosSize afterRam, Bytes.drop c.biosSize afterRam)

/-- `BLOAD`: RAM, BIOS and the TTY buffer from the stream, and the bus usable (48 R259); refused while `bus_failed`. -/
def execBload (stream : Bytes) (s : State) : Effect :=
  whenAlive s (
    let parts := splitSnapshot s.config stream
    let n := littleEndian (Bytes.toList (Bytes.take 4 parts.2.2))
    let length := s.config.ramSize + s.config.biosSize + 4 + n
    if length ≤ Bytes.size stream then
      .next ({ s with
        ram := Memory.ofBytes parts.1
        bios := Memory.ofBytes parts.2.1
        ttyLineBuffer := Bytes.toList (Bytes.take n (Bytes.drop 4 parts.2.2))
        busUsable := true }.emit (.restored length) none)
    else .refused .shortStream)

end Sys2Proof.Machine
end

