-- ==== Sys2Proof/Machine/Spu.lean ====
section
/-! DEFINITION. The sound processor register block, a stub (42): every read is zero, no write is kept (42 R150). -/

namespace Sys2Proof.Machine

/-- A read of any offset of the window: zero, unlogged (42 R151, R152). -/
def spuRead (s : State) : Effect := whenReady s (.next (s.readDone 0))

/-- A write of any offset of the window: accepted, and dropped (42 R153 to R155). -/
def spuWrite (s : State) : Effect := whenReady s (.next s.writeDone)

/-- `RD.SPU.STAT.B` (42 R151). -/
def execRdSpuStatB (_ : ReadOperands) (s : State) : Effect := spuRead s

/-- `RD.SPU.STAT.H` (42 R151). -/
def execRdSpuStatH (_ : ReadOperands) (s : State) : Effect := spuRead s

/-- `RD.SPU.STAT.W` (42 R151). -/
def execRdSpuStatW (_ : ReadOperands) (s : State) : Effect := spuRead s

/-- `WR.SPU.FIFO.B` (42 R153). -/
def execWrSpuFifoB (_ : WriteOperands) (s : State) : Effect := spuWrite s

/-- `WR.SPU.FIFO.H` (42 R153). -/
def execWrSpuFifoH (_ : WriteOperands) (s : State) : Effect := spuWrite s

/-- `WR.SPU.FIFO.W` (42 R153). -/
def execWrSpuFifoW (_ : WriteOperands) (s : State) : Effect := spuWrite s

/-- `WR.SPU.CTRL.B` (42 R154). -/
def execWrSpuCtrlB (_ : WriteOperands) (s : State) : Effect := spuWrite s

/-- `WR.SPU.CTRL.H` (42 R154). -/
def execWrSpuCtrlH (_ : WriteOperands) (s : State) : Effect := spuWrite s

/-- `WR.SPU.CTRL.W` (42 R154). -/
def execWrSpuCtrlW (_ : WriteOperands) (s : State) : Effect := spuWrite s

/-- `RD.SPU.B` (42 R152). -/
def execRdSpuB (_ : ReadOperands) (s : State) : Effect := spuRead s

/-- `RD.SPU.H` (42 R152). -/
def execRdSpuH (_ : ReadOperands) (s : State) : Effect := spuRead s

/-- `RD.SPU.W` (42 R152). -/
def execRdSpuW (_ : ReadOperands) (s : State) : Effect := spuRead s

/-- `WR.SPU.B` (42 R155). -/
def execWrSpuB (_ : WriteOperands) (s : State) : Effect := spuWrite s

/-- `WR.SPU.H` (42 R155). -/
def execWrSpuH (_ : WriteOperands) (s : State) : Effect := spuWrite s

/-- `WR.SPU.W` (42 R155). -/
def execWrSpuW (_ : WriteOperands) (s : State) : Effect := spuWrite s

end Sys2Proof.Machine
end

