-- ==== Sys2Proof/Machine/Transfer.lean ====
section
/-! DEFINITION. The peripheral transfer state machine and motion sampling (46). No transfer reads or writes block BUS (46 R200). -/

namespace Sys2Proof.Machine

/-- The end of every transfer: `ack`, the output byte and the next state (46 R200). -/
def finishTransfer (ack : Bool) (output : Byte) (next : TransferState) (s : State) : Effect :=
  .next ({ s with transferState := next }.emit (.transfer ack output) none)

/-- `SampleMotion` with the answer of its one `PointerPosition()` call (46 R213; log 6). -/
def sampleMotion (pointer : Position) (s : State) : State :=
  let px := s.config.toCoordinate pointer.x
  let py := s.config.toCoordinate pointer.y
  { s.record (.pointerPosition px py) with
    deltaX := deltaByte (px - s.lastHostPositionX)
    deltaY := deltaByte (py - s.lastHostPositionY)
    lastHostPositionX := px
    lastHostPositionY := py }

/-- `XFER.IDLE.SEL` (46 R201). -/
def execXferIdleSel (s : State) : Effect := finishTransfer moreBytesFollow idleOut .ready s

/-- `XFER.IDLE.OTHER` (46 R202). -/
def execXferIdleOther (_ : Byte) (s : State) : Effect := finishTransfer lastByteOfExchange idleOut .idle s

/-- `XFER.READY.POLL` (46 R203). -/
def execXferReadyPoll (s : State) : Effect := finishTransfer moreBytesFollow (lowByte deviceId) .idMsb s

/-- `XFER.READY.OTHER` (46 R204). -/
def execXferReadyOther (_ : Byte) (s : State) : Effect := finishTransfer lastByteOfExchange idleOut .idle s

/-- `XFER.IDMSB` (46 R205). -/
def execXferIdmsb (_ : Byte) (s : State) : Effect := finishTransfer moreBytesFollow (highByte deviceId) .buttonsLsb s

/-- `XFER.BTNLSB` (46 R206). -/
def execXferBtnlsb (_ : Byte) (s : State) : Effect := finishTransfer moreBytesFollow (lowByte s.buttonState) .buttonsMsb s

/-- `XFER.BTNMSB` (46 R207). -/
def execXferBtnmsb (_ : Byte) (s : State) : Effect := finishTransfer moreBytesFollow (highByte s.buttonState) .deltaX s

/-- `XFER.DELTAX`: the sample first, then its own delta goes out (46 R208). -/
def execXferDeltax (_ : Byte) (pointer : Position) (s : State) : Effect :=
  let t := sampleMotion pointer s
  finishTransfer moreBytesFollow t.deltaX .deltaY t

/-- `XFER.DELTAY` (46 R209). -/
def execXferDeltay (_ : Byte) (s : State) : Effect := finishTransfer lastByteOfExchange s.deltaY .idle s

end Sys2Proof.Machine
end

