-- ==== Sys2Proof/Machine/Dispatch.lean ====
section
/-! DEFINITION. One arm per instruction, each one direct call of its meaning. -/

namespace Sys2Proof.Machine

def exec (i : Instr) (s : State) : Host.Outcome State Fault Refusal :=
  match i with
  | .rdRamB o => Sys2Proof.Machine.execRdRamB o s
  | .rdRamH o => Sys2Proof.Machine.execRdRamH o s
  | .rdRamW o => Sys2Proof.Machine.execRdRamW o s
  | .wrRamB o => Sys2Proof.Machine.execWrRamB o s
  | .wrRamH o => Sys2Proof.Machine.execWrRamH o s
  | .wrRamW o => Sys2Proof.Machine.execWrRamW o s
  | .rdBiosB o => Sys2Proof.Machine.execRdBiosB o s
  | .rdBiosH o => Sys2Proof.Machine.execRdBiosH o s
  | .rdBiosW o => Sys2Proof.Machine.execRdBiosW o s
  | .wrBiosB o => Sys2Proof.Machine.execWrBiosB o s
  | .wrBiosH o => Sys2Proof.Machine.execWrBiosH o s
  | .wrBiosW o => Sys2Proof.Machine.execWrBiosW o s
  | .rdExp2StatusB o => Sys2Proof.Machine.execRdExp2StatusB o s
  | .rdExp2StatusH o => Sys2Proof.Machine.execRdExp2StatusH o s
  | .rdExp2StatusW o => Sys2Proof.Machine.execRdExp2StatusW o s
  | .wrExp2TtyB o => Sys2Proof.Machine.execWrExp2TtyB o s
  | .wrExp2TtyH o => Sys2Proof.Machine.execWrExp2TtyH o s
  | .wrExp2TtyW o => Sys2Proof.Machine.execWrExp2TtyW o s
  | .wrExp2PostB o => Sys2Proof.Machine.execWrExp2PostB o s
  | .wrExp2PostH o => Sys2Proof.Machine.execWrExp2PostH o s
  | .wrExp2PostW o => Sys2Proof.Machine.execWrExp2PostW o s
  | .rdExp2InvB o => Sys2Proof.Machine.execRdExp2InvB o s
  | .rdExp2InvH o => Sys2Proof.Machine.execRdExp2InvH o s
  | .rdExp2InvW o => Sys2Proof.Machine.execRdExp2InvW o s
  | .wrExp2InvB o => Sys2Proof.Machine.execWrExp2InvB o s
  | .wrExp2InvH o => Sys2Proof.Machine.execWrExp2InvH o s
  | .wrExp2InvW o => Sys2Proof.Machine.execWrExp2InvW o s
  | .rdSpuStatB o => Sys2Proof.Machine.execRdSpuStatB o s
  | .rdSpuStatH o => Sys2Proof.Machine.execRdSpuStatH o s
  | .rdSpuStatW o => Sys2Proof.Machine.execRdSpuStatW o s
  | .wrSpuFifoB o => Sys2Proof.Machine.execWrSpuFifoB o s
  | .wrSpuFifoH o => Sys2Proof.Machine.execWrSpuFifoH o s
  | .wrSpuFifoW o => Sys2Proof.Machine.execWrSpuFifoW o s
  | .wrSpuCtrlB o => Sys2Proof.Machine.execWrSpuCtrlB o s
  | .wrSpuCtrlH o => Sys2Proof.Machine.execWrSpuCtrlH o s
  | .wrSpuCtrlW o => Sys2Proof.Machine.execWrSpuCtrlW o s
  | .rdSpuB o => Sys2Proof.Machine.execRdSpuB o s
  | .rdSpuH o => Sys2Proof.Machine.execRdSpuH o s
  | .rdSpuW o => Sys2Proof.Machine.execRdSpuW o s
  | .wrSpuB o => Sys2Proof.Machine.execWrSpuB o s
  | .wrSpuH o => Sys2Proof.Machine.execWrSpuH o s
  | .wrSpuW o => Sys2Proof.Machine.execWrSpuW o s
  | .rdDmaW o answer => Sys2Proof.Machine.execRdDmaW o answer s
  | .wrDmaW o => Sys2Proof.Machine.execWrDmaW o s
  | .rdDmaB o => Sys2Proof.Machine.execRdDmaB o s
  | .rdDmaH o => Sys2Proof.Machine.execRdDmaH o s
  | .wrDmaB o => Sys2Proof.Machine.execWrDmaB o s
  | .wrDmaH o => Sys2Proof.Machine.execWrDmaH o s
  | .rdInvB o => Sys2Proof.Machine.execRdInvB o s
  | .rdInvH o => Sys2Proof.Machine.execRdInvH o s
  | .rdInvW o => Sys2Proof.Machine.execRdInvW o s
  | .wrInvB o => Sys2Proof.Machine.execWrInvB o s
  | .wrInvH o => Sys2Proof.Machine.execWrInvH o s
  | .wrInvW o => Sys2Proof.Machine.execWrInvW o s
  | .xferIdleSel => Sys2Proof.Machine.execXferIdleSel s
  | .xferIdleOther input => Sys2Proof.Machine.execXferIdleOther input s
  | .xferReadyPoll => Sys2Proof.Machine.execXferReadyPoll s
  | .xferReadyOther input => Sys2Proof.Machine.execXferReadyOther input s
  | .xferIdmsb input => Sys2Proof.Machine.execXferIdmsb input s
  | .xferBtnlsb input => Sys2Proof.Machine.execXferBtnlsb input s
  | .xferBtnmsb input => Sys2Proof.Machine.execXferBtnmsb input s
  | .xferDeltax input pointer => Sys2Proof.Machine.execXferDeltax input pointer s
  | .xferDeltay input => Sys2Proof.Machine.execXferDeltay input s
  | .preset => Sys2Proof.Machine.execPreset s
  | .setbtn identity pressed => Sys2Proof.Machine.execSetbtn identity pressed s
  | .setbtnc code pressed => Sys2Proof.Machine.execSetbtnc code pressed s
  | .psave => Sys2Proof.Machine.execPsave s
  | .pload apply stream => Sys2Proof.Machine.execPload apply stream s
  | .gettype => Sys2Proof.Machine.execGettype s
  | .getvmc => Sys2Proof.Machine.execGetvmc s
  | .loadbios file => Sys2Proof.Machine.execLoadbios file s
  | .bsave => Sys2Proof.Machine.execBsave s
  | .bload stream => Sys2Proof.Machine.execBload stream s

end Sys2Proof.Machine
end

