-- ==== Sys2Proof/Machine/Issue.lean ====
section
/-! DEFINITION. Issuing an operation: the gate a bus transaction meets before its word is looked at (60 R279), running what the
decoder answers, and placing a table word for the host (log 10). -/

namespace Sys2Proof.Machine

/-- A bus transaction is gated first; the other requests are gated, if at all, by their meanings (60 R279). -/
def gateRequest (r : Request) (s : State) (k : Effect) : Effect := if r.isTransaction then whenReady s k else k

/-- The decoded instruction is run; a refused word is a refusal by name. -/
def runDecoded (run : Instr → State → Effect) (d : Except DecodeError Instr) (s : State) : Effect :=
  match d with
  | .ok i => run i s
  | .error e => .refused (.undecodable e)

/-- One request, taken from the queue: the parameters must be admitted (00 R8), a bus transaction must pass the gate, and the
word must decode. -/
def runRequest (run : Instr → State → Effect) (r : Request) (s : State) : Effect :=
  if s.config.wf then gateRequest r s (runDecoded run (decode s.config s.transferState r) s)
  else .refused .illFormedConfig

/-- What the gate of block BUS needs before an operation of that block can run: the bus constructed and loaded (70 R310). -/
def readyFor (r : Request) (s : State) : State :=
  match r with
  | .txn .. => { s with busUsable := true, busFailed := false }
  | .sel .. => { s with busUsable := true, busFailed := false }
  | .pcmd .. => s
  | .hcmd .. => { s with busUsable := true, busFailed := false }

/-- The state with a table word issued before everything else: for an `XSEL` word the engine is in the word's state (log 10). -/
def issueTableWord (s : State) (nbits w : Nat) : State :=
  match readTableWord s.config nbits w with
  | .xsel x =>
    match TransferState.ofCode (x.extractLsb' 8 4).toNat with
    | some t =>
      { s with
        transferState := t
        requests := pcmdRequest (pcmdWord 0 (BitVec.setWidth 12 (x.extractLsb' 0 8))) :: s.requests }
    | none => s
  | .request r => { readyFor r s with requests := r :: s.requests }
  | .none => s

end Sys2Proof.Machine
end

