-- ==== Sys2Proof/Machine/Step.lean ====
section
/-! DEFINITION. One step: the next operation the agents have issued, decoded and run as one atomic whole (00 R15, 20 R64). -/

namespace Sys2Proof.Machine

/-- Runs the request at the head of the queue (log 9); under a configuration that fails 00 R8 it is refused. With nothing issued
the hardware does nothing: it never initiates an operation (70 R327). -/
def step (s : State) : Host.Outcome State Fault Refusal :=
  match s.requests with
  | [] => .next s
  | r :: rest => runRequest exec r { s with requests := rest }

/-- The state in which the very next step runs the instruction of a table word (log 10). -/
def State.withFetchWord (s : State) (nbits w : Nat) : State := issueTableWord s nbits w

end Sys2Proof.Machine
end

