-- ==== Sys2Proof/Machine/Pseudo.lean ====
section
/-! DEFINITION. The textual notation's operations and pseudo-operations as requests (30 R101 to R103), and the pseudocode
primitives `MemRead` and `MemWrite` (00 R10). -/

namespace Sys2Proof.Machine

/-- `RD.w addr @cpu=addr` (30 R101); the DMA collaborator answers `answer` if it is asked. -/
def busReadRequest (w : Width) (cpuAddr busAddr answer : Word) : Request := .txn (txnWord .read w busAddr 0) cpuAddr answer

/-- `WR.w addr, value @cpu=addr` (30 R101). -/
def busWriteRequest (w : Width) (cpuAddr busAddr wdata : Word) : Request := .txn (txnWord .write w busAddr wdata) cpuAddr 0

/-- `MemRead(a, n)` as an operation: both views of the address alike (00 R10). -/
def memReadRequest (w : Width) (a answer : Word) : Request := busReadRequest w a a answer

/-- `MemWrite(a, n, v)`: the value truncated to the width (00 R10). -/
def memWriteRequest (w : Width) (a v : Word) : Request := busWriteRequest w a a (truncTo w v)

/-- The value of `MemRead`: the low bits of the last read's carrier (00 R10, 30 R93). -/
def State.lastCpuValue (w : Width) (s : State) : Option Word :=
  match s.outputs.getLast? with
  | some ⟨.read _ carrier, _⟩ => some (cpuValue w carrier)
  | _ => none

/-- `XFER in`, the pointer answering `pointer` if it is asked (30 R102). -/
def transferRequest (input : Byte) (pointer : Position) : Request := encodeTransfer input pointer

/-- `TTYPUTS "s"`: one byte write to the TTY offset per character, in order (30 R103). -/
def ttyPuts (c : Config) (text : List Byte) : List Request :=
  text.map fun ch => memWriteRequest .byte (c.exp2.base + exp2TtyOffset) (ch.setWidth 32)

/-- `POLL`: select, poll, and five fillers (30 R103). -/
def poll (pointer : Position) : List Request :=
  [cmdSelect, cmdPoll, 0x00, 0x00, 0x00, 0x00, 0x00].map fun input => transferRequest input pointer

/-- `PRESS id` (30 R103). -/
def press (identity : Byte) : Request := encode (.setbtn identity true)

/-- `RELEASE id` (30 R103). -/
def release (identity : Byte) : Request := encode (.setbtn identity false)

end Sys2Proof.Machine
end

