-- ==== Sys2Proof/Safety.lean ====
section
/-! DEFINITION. What counts as a safe run (70 R327), the invariant of the state, and the successor relation of the peripheral's
sequencer (10 R37). -/

namespace Sys2Proof

/-- The state after one in the fixed cycle `Idle, Ready, IDMSB, ButtonsLSB, ButtonsMSB, DeltaX, DeltaY` (10 R37). -/
def TransferState.successor : TransferState → TransferState
  | .idle => .ready
  | .ready => .idMsb
  | .idMsb => .buttonsLsb
  | .buttonsLsb => .buttonsMsb
  | .buttonsMsb => .deltaX
  | .deltaX => .deltaY
  | .deltaY => .idle

namespace Machine

/-- A state is acceptable as final when `bus_failed` is false (70 R327). -/
def State.acceptable (s : State) : Prop := s.busFailed = false

/-- A run of `k` steps that no refusal ended, into an acceptable state (70 R327). -/
def SafeRun (k : Nat) (s t : State) : Prop := Host.Core.run core k s = .next t ∧ t.acceptable

/-- The unspecified contents a buffer may hold have been handed out (log 4). -/
def Memory.drawn (m : Memory) (draws : Nat) : Prop := ∀ k, m.fill = .unspecified k → k < draws

/-- What every reachable state meets: the parameters are admitted (00 R8), both buffers are in canonical form and inside their
sizes (10 R28, R29), a usable bus has a BIOS image all of whose bytes are known (10 R30, 45 R190), and the baseline is a signed
`POS_BITS`-bit position (10 R36). -/
structure State.Inv (s : State) : Prop where
  config : s.config.wf = true
  ram : s.ram.wf s.config.ramSize = true
  bios : s.bios.wf s.config.biosSize = true
  ramDrawn : s.ram.drawn s.draws
  biosDrawn : s.bios.drawn s.draws
  biosKnown : s.busUsable = true → s.bios.fill = .zero
  baselineX : s.config.coordinateFits s.lastHostPositionX = true
  baselineY : s.config.coordinateFits s.lastHostPositionY = true

end Machine

end Sys2Proof
end

