-- ==== Sys2Proof/Certificates/Slice0/Obligations.lean ====
section
/-! DEFINITION. The statements for the provers. Each docstring names the rule of spec/ it formalises. -/

open Sys2Proof Sys2Proof.Machine

namespace Sys2Proof.Statements

/-- Block BUS takes transactions: `bus_usable = true` and `bus_failed = false` (70 R311). -/
def Ready (s : State) : Prop := s.busUsable = true ∧ s.busFailed = false

/-- The state `s` with this result added, no condition raised. -/
def returning (s : State) (r : Response) : State := { s with outputs := s.outputs ++ [⟨r, none⟩] }

/-- The state `s` with this result added and this condition raised. -/
def raising (s : State) (r : Response) (c : Condition) : State := { s with outputs := s.outputs ++ [⟨r, some c⟩] }

/-- The state `s` with this event added to the history. -/
def logging (s : State) (e : Event) : State := { s with history := s.history ++ [e] }

/-- The `SEL` words `pattern` plus the offset select this read (30 R83, R95). -/
def SelectsRead (pattern : BitVec 44) (offset : Word) (i : ReadOperands → Instr) : Prop :=
  ∀ c t cpu bus wdata answer,
    decode c t (.sel (pattern + offset.setWidth 44) cpu bus wdata answer) = .ok (i ⟨offset, cpu, bus⟩)

/-- The `SEL` words `pattern` plus the offset select this write. -/
def SelectsWrite (pattern : BitVec 44) (offset : Word) (i : WriteOperands → Instr) : Prop :=
  ∀ c t cpu bus wdata answer,
    decode c t (.sel (pattern + offset.setWidth 44) cpu bus wdata answer) = .ok (i ⟨offset, cpu, bus, wdata⟩)

/-- The `PCMD` word selects this command in every transfer state (30 R84). -/
def SelectsCommand (word : BitVec 16) (i : Instr) : Prop :=
  ∀ c t stream pointer, decode c t (.pcmd word stream pointer) = .ok i

/-- The little-endian value of `n` bytes of a buffer at an offset. -/
def valueAt (m : Memory) (o n : Nat) : Nat := ∑ k ∈ Finset.range n, (m.read (o + k)).toNat * 256 ^ k

/-- `i` reads `n` bytes of the buffer at `o`: the zero-extended little-endian value, nothing changed; where the bytes run past
the end it is refused. -/
def ReadsBytes (m : Memory) (size : Nat) (i : Instr) (o n : Nat) (s : State) : Prop :=
  (o + n ≤ size → ∃ v : Word, v.toNat = valueAt m o n ∧ exec i s = .next (returning s (.read true v))) ∧
  (size < o + n → exec i s = .refused .outOfBounds)

/-- The buffer `m'` is `m` with the `n` low bytes of `v` stored at `o`, low byte first, and every other byte as before. -/
def Stored (m m' : Memory) (o n : Nat) (v : Word) : Prop :=
  (∀ k < n, m'.read (o + k) = v.extractLsb' (8 * k) 8) ∧ ∀ a, a < o ∨ o + n ≤ a → m'.read a = m.read a

/-- `i` stores `n` bytes of RAM at `o` and nothing else; where they run past the end it is refused. -/
def StoresRam (i : Instr) (o n : Nat) (v : Word) (s : State) : Prop :=
  (o + n ≤ s.config.ramSize →
    ∃ m, Stored s.ram m o n v ∧ exec i s = .next (returning { s with ram := m } (.write true))) ∧
  (s.config.ramSize < o + n → exec i s = .refused .outOfBounds)

/-- `i` stores `n` bytes of the BIOS image at `o` under the policy `store`, and none under `ignore`. -/
def StoresBios (i : Instr) (o n : Nat) (v : Word) (s : State) : Prop :=
  (s.config.biosWritePolicy = .ignore → exec i s = .next (returning s (.write true))) ∧
  (s.config.biosWritePolicy = .store → o + n ≤ s.config.biosSize →
    ∃ m, Stored s.bios m o n v ∧ exec i s = .next (returning { s with bios := m } (.write true))) ∧
  (s.config.biosWritePolicy = .store → s.config.biosSize < o + n → exec i s = .refused .outOfBounds)

/-- `i` is a TTY write of the low byte of `wdata` into a buffer with room (41 R133). -/
def WritesTty (i : Instr) (wdata : Word) (s : State) : Prop :=
  let c : Byte := wdata.extractLsb' 0 8
  (c = 0x0D → exec i s = .next (returning s (.write true))) ∧
  (c = 0x0A → (s.ttyLineBuffer ≠ [] ∨ s.config.ttyFlushEmpty = true) →
    exec i s = .next (returning { logging s (.logTty s.ttyLineBuffer) with ttyLineBuffer := [] } (.write true))) ∧
  (c = 0x0A → s.ttyLineBuffer = [] → s.config.ttyFlushEmpty = false → exec i s = .next (returning s (.write true))) ∧
  (c ≠ 0x0D → c ≠ 0x0A → (∀ cap, s.config.ttyBufCap = some cap → s.ttyLineBuffer.length < cap) →
    exec i s = .next (returning { s with ttyLineBuffer := s.ttyLineBuffer ++ [c] } (.write true)))

/-- An invalid read: all ones, one `LogInvalid` with both addresses and no value. -/
def ReadsInvalid (i : Instr) (w : Width) (o : ReadOperands) (s : State) : Prop :=
  exec i s = .next (raising (logging s (.logInvalid .read w o.cpuAddr o.busAddr none)) (.read true 0xFFFFFFFF) .invalidAccess)

/-- An invalid write: nothing stored, one `LogInvalid` with both addresses and the whole carrier. -/
def WritesInvalid (i : Instr) (w : Width) (o : WriteOperands) (s : State) : Prop :=
  exec i s = .next (raising (logging s (.logInvalid .write w o.cpuAddr o.busAddr (some o.wdata))) (.write true) .invalidAccess)

/-- A DMA access that is not `Word`: the block has failed; nothing returned, logged or forwarded. -/
def Asserts (i : Instr) (d : Direction) (w : Width) (busAddr : Word) (s : State) : Prop :=
  exec i s = .next (raising { s with busFailed := true } .nothing (.dmaWidthAssert d w busAddr))

/-- A transfer that answers and moves, and does nothing else. -/
def Transfers (i : Instr) (ack : Bool) (output : Byte) (next : TransferState) (s : State) : Prop :=
  exec i s = .next (returning { s with transferState := next } (.transfer ack output))

/-- The instruction operates on block BUS: its row is a bus transaction or a host command. -/
def OnBus (i : Instr) : Prop := (tableWord i).1 = .sel ∨ (tableWord i).1 = .hcmd

/-- The instruction operates on block PERIPH: its row is a transfer or a peripheral command. -/
def OnPeripheral (i : Instr) : Prop := (tableWord i).1 = .xsel ∨ (tableWord i).1 = .pcmd

/-- The state with every element of block PERIPH replaced. -/
def withPeripheral (ts : TransferState) (buttons : BitVec 16) (dx dy : BitVec 8) (px py : Int) (s : State) : State :=
  { s with transferState := ts, buttonState := buttons, deltaX := dx, deltaY := dy, lastHostPositionX := px,
           lastHostPositionY := py }

/-- The state with every element of block BUS replaced. -/
def withBus (ram bios : Memory) (usable failed : Bool) (tty : List Byte) (s : State) : State :=
  { s with ram := ram, bios := bios, busUsable := usable, busFailed := failed, ttyLineBuffer := tty }

/-- The outcome with its next state, if it has one, mapped. -/
def mapNext (f : State → State) : Host.Outcome State Fault Refusal → Host.Outcome State Fault Refusal
  | .next t => .next (f t)
  | .fault r => .fault r
  | .refused r => .refused r

/-- A motion delta as the source clamps it. -/
def clamped (d : Int) : Int := max (-128) (min 127 d)

end Sys2Proof.Statements

open Sys2Proof.Statements

/-! ## Encoding and decoding -/

/-- 95 section 2.1: words written out from the spec's table of transactions, one per region and direction, and a mirror. -/
def Obligations.WrittenOutTransactionsDecodeAsListed : Prop :=
  let d (word : BitVec 72) (cpu : Word) := decode Config.default .idle (.txn word cpu 0)
  d 0x02007FFFFC00000000 0x807FFFFC = .ok (.rdRamW ⟨0x1FFFFC, 0x807FFFFC, 0x007FFFFC⟩) ∧
  d 0x021FC7FFFC00000000 0x1FC7FFFC = .ok (.rdBiosW ⟨0x7FFFC, 0x1FC7FFFC, 0x1FC7FFFC⟩) ∧
  d 0x101F80202300000048 0x1F802023 = .ok (.wrExp2TtyB ⟨0x23, 0x1F802023, 0x1F802023, 0x48⟩) ∧
  d 0x001F803FFF00000000 0x1F803FFF = .ok (.rdExp2InvB ⟨0x1FFF, 0x1F803FFF, 0x1F803FFF⟩) ∧
  d 0x111F801DAA0000C000 0x1F801DAA = .ok (.wrSpuCtrlH ⟨0x1AA, 0x1F801DAA, 0x1F801DAA, 0xC000⟩) ∧
  d 0x101F8010F000000001 0x1F8010F0 = .ok (.wrDmaB ⟨0x70, 0x1F8010F0, 0x1F8010F0, 0x01⟩) ∧
  d 0x1280000000DEADBEEF 0x80000000 = .ok (.wrInvW ⟨0x80000000, 0x80000000, 0x80000000, 0xDEADBEEF⟩)

/-- 30 section 3: decoding the encoding of a well-formed instruction gives it back, every operand at every value. -/
def Obligations.DecodingAnEncodedInstructionGivesItBack : Prop :=
  ∀ (c : Config) (t : TransferState) (i : Instr), c.wf = true → WellFormed c i = true →
    (∀ row, i.transferRow = some row → t = row) → decode c t (encode i) = .ok i

/-- 30 R82, R88: a transaction that decodes gives a well-formed instruction whose encoding is the transaction itself, but for
the collaborator's answer, which is no part of the word. -/
def Obligations.EncodingADecodedTransactionGivesItBack : Prop :=
  ∀ (c : Config) (t : TransferState) (word : BitVec 72) (cpu answer : Word) (i : Instr),
    decode c t (.txn word cpu answer) = .ok i → WellFormed c i = true ∧ ∃ a, encode i = .txn word cpu a

/-- 30 R95: a decoder takes the first row of the right format whose masked bits match. A `SEL` or `XSEL` word decodes exactly
when the table has a row for it, and to that row's operation. -/
def Obligations.TheDecoderTakesTheFirstMatchingRow : Prop :=
  (∀ (c : Config) (t : TransferState) (word : BitVec 44) (cpu bus wdata answer : Word),
    (firstRow .sel word.toNat).map Row.mnemonic =
      (decoded (decode c t (.sel word cpu bus wdata answer))).map Instr.mnemonic) ∧
  ∀ (word : BitVec 12) (pointer : Position),
    (firstRow .xsel word.toNat).map Row.mnemonic = (decoded (decodeXsel word pointer)).map Instr.mnemonic

/-- 30 R90: `XFER in` selects its row on `transfer_state ++ in`. -/
def Obligations.ATransferIsSelectedByStateAndInput : Prop :=
  ∀ (c : Config) (t : TransferState) (input : Byte) (stream : Bytes) (pointer : Position),
    decode c t (.pcmd (input.setWidth 16) stream pointer) = decodeXsel (BitVec.ofNat 4 t.code ++ input) pointer

/-- 30 R96, R98, R88: reserved direction, width and command codes, a read with data, nonzero unused bits and a button identity
out of range are refused. -/
def Obligations.ReservedWordsAreRefused : Prop :=
  (∀ c t (word : BitVec 72) cpu answer, 1 < (word.extractLsb' 68 4).toNat → ∃ e, decode c t (.txn word cpu answer) = .error e) ∧
  (∀ c t (word : BitVec 72) cpu answer, 2 < (word.extractLsb' 64 4).toNat → ∃ e, decode c t (.txn word cpu answer) = .error e) ∧
  (∀ c t (word : BitVec 72) cpu answer, word.extractLsb' 68 4 = 0 → word.extractLsb' 0 32 ≠ 0 →
    ∃ e, decode c t (.txn word cpu answer) = .error e) ∧
  (∀ c t (word : BitVec 16) stream pointer, 8 ≤ (word.extractLsb' 12 4).toNat →
    decode c t (.pcmd word stream pointer) = .error .reservedCommand) ∧
  (∀ c t (word : BitVec 16) stream pointer, word.extractLsb' 12 4 ∈ [(1 : BitVec 4), 4, 6, 7] → word.extractLsb' 0 12 ≠ 0 →
    decode c t (.pcmd word stream pointer) = .error .nonzeroUnusedBits) ∧
  (∀ c t (word : BitVec 16) stream pointer, word.extractLsb' 12 4 = 0 → word.extractLsb' 8 4 ≠ 0 →
    decode c t (.pcmd word stream pointer) = .error .nonzeroUnusedBits) ∧
  (∀ c t (word : BitVec 16) stream pointer, word.extractLsb' 12 4 ∈ [(2 : BitVec 4), 3] → word.extractLsb' 9 3 ≠ 0 →
    ∃ e, decode c t (.pcmd word stream pointer) = .error e) ∧
  (∀ c t (word : BitVec 16) stream pointer, word.extractLsb' 12 4 = 5 → word.extractLsb' 1 11 ≠ 0 →
    decode c t (.pcmd word stream pointer) = .error .nonzeroUnusedBits) ∧
  (∀ c t (word : BitVec 16) stream pointer, word.extractLsb' 12 4 = 2 → c.buttonCount ≤ (word.extractLsb' 0 8).toNat →
    decode c t (.pcmd word stream pointer) = .error .noSuchButton) ∧
  (∀ c t (word : BitVec 8) file stream, 3 ≤ (word.extractLsb' 4 4).toNat →
    decode c t (.hcmd word file stream) = .error .reservedCommand) ∧
  (∀ c t (word : BitVec 8) file stream, (word.extractLsb' 4 4).toNat < 3 → word.extractLsb' 0 4 ≠ 0 →
    decode c t (.hcmd word file stream) = .error .nonzeroUnusedBits)

/-! ## The address map -/

/-- 20 R50: an address belongs to a region exactly when it lies in that region's window, and to `INVALID` when it lies in none;
so under 00 R8 the order of the checks cannot be observed. -/
def Obligations.TheOrderOfTheRegionChecksCannotBeObserved : Prop :=
  ∀ (c : Config) (a : Word), c.wf = true → ∀ (r : Region) (offset : Word),
    c.resolve a = (r, offset) ↔ c.located r offset a = true

/-- 20 R52: two addresses of the RAM window that differ by a multiple of `RAM_SIZE` name the same byte. -/
def Obligations.RamMirrorsNameOneByte : Prop :=
  ∀ (c : Config) (a b : Word), c.wf = true → c.ram.contains a = true → c.ram.contains b = true →
    ((∃ k : Nat, b.toNat = a.toNat + k * c.ramSize) ↔ a.toNat ≤ b.toNat ∧ c.resolve a = c.resolve b)

/-- 30 R92: the masked offset is `bus_addr AND X_MASK`; it lies inside the RAM buffer for RAM, and outside RAM the mask changes
nothing inside the window. -/
def Obligations.TheOffsetIsTheMaskedAddress : Prop :=
  ∀ (c : Config) (a : Word) (r : Region) (w : Window), c.wf = true → c.window? r = some w → w.contains a = true →
    w.offsetOf a = a &&& w.mask ∧ (r = .ram → (w.offsetOf a).toNat < c.ramSize) ∧ (r ≠ .ram → w.offsetOf a = a - w.base)

/-! ## The step -/

/-- 00 R15, 60 R279: a request that decodes is run as the instruction it decodes to, on the state without it; the gate of a bus
transaction changes nothing of that. -/
def Obligations.AStepRunsTheDecodedInstruction : Prop :=
  ∀ (s : State) (r : Request) (rest : List Request) (i : Instr), s.config.wf = true → s.requests = r :: rest →
    decode s.config s.transferState r = .ok i → step s = exec i { s with requests := rest }

/-- 60 R279, R275; 00 R8: where a step refuses before any instruction runs. The gate comes first, `bus_failed` before
`bus_usable`, then the word. Two clauses are the model's choice: that an empty queue is an idle step (log 9), and that a
configuration which fails 00 R8 is refused at the step that would run a request, before the gate (log 19). -/
def Obligations.AStepRefusesInTheOrderOfTheChecks : Prop :=
  (∀ s : State, s.requests = [] → step s = .next s) ∧
  ∀ (s : State) (r : Request) (rest : List Request), s.requests = r :: rest →
    (s.config.wf = false → step s = .refused .illFormedConfig) ∧
    (s.config.wf = true → r.isTransaction = true → s.busFailed = true → step s = .refused .busFailed) ∧
    (s.config.wf = true → r.isTransaction = true → s.busFailed = false → s.busUsable = false →
      step s = .refused .busNotUsable) ∧
    (∀ e, s.config.wf = true → (r.isTransaction = true → Ready s) → decode s.config s.transferState r = .error e →
      step s = .refused (.undecodable e))

/-- 10 R28 to R37: construction under admitted parameters meets the invariant, and so does reset. -/
def Obligations.ConstructionMeetsTheInvariant : Prop :=
  (∀ (c : Config) (p : Position), c.wf = true → (State.construct c p).Inv) ∧ State.reset.Inv

/-- 10 R28 to R36: every step keeps the invariant. -/
def Obligations.EveryStepKeepsTheInvariant : Prop := ∀ s t : State, s.Inv → step s = .next t → t.Inv

/-- 10 R32: `bus_failed` is set by the width assertion and by nothing else, and never cleared. -/
def Obligations.OnlyTheWidthAssertionFailsTheBus : Prop :=
  ∀ s t : State, step s = .next t →
    (s.busFailed = true → t.busFailed = true) ∧
    (s.busFailed = false → t.busFailed = true →
      ∃ d w a, w ≠ .word ∧ t.outputs = s.outputs ++ [⟨.nothing, some (.dmaWidthAssert d w a)⟩])

/-- 70 R311: while `bus_usable` is false every bus transaction and `BSAVE` is refused; while `bus_failed` is true every
operation on block BUS is. -/
def Obligations.AnUnusableOrFailedBusAcceptsNothing : Prop :=
  (∀ i s, OnBus i → s.busFailed = true → exec i s = .refused .busFailed) ∧
  (∀ i s, (tableWord i).1 = .sel ∨ i = .bsave → s.busFailed = false → s.busUsable = false →
    exec i s = .refused .busNotUsable)

/-- 10 R30, R39: no step changes the parameters; the bus becomes usable only by a `LOADBIOS` that succeeds or a `BLOAD`, and
unusable only by a `LOADBIOS` that fails. -/
def Obligations.OnlyLoadAndRestoreChangeUsability : Prop :=
  ∀ s t : State, step s = .next t →
    t.config = s.config ∧
    (s.busUsable = false → t.busUsable = true → ∃ r rest, s.requests = r :: rest ∧
      ((∃ file, decode s.config s.transferState r = .ok (.loadbios file) ∧
          t.outputs = s.outputs ++ [⟨.loaded true, none⟩]) ∨
        ∃ stream n, decode s.config s.transferState r = .ok (.bload stream) ∧
          s.config.ramSize + s.config.biosSize + 4 ≤ n ∧ t.outputs = s.outputs ++ [⟨.restored n, none⟩])) ∧
    (s.busUsable = true → t.busUsable = false → ∃ r rest file, s.requests = r :: rest ∧
      decode s.config s.transferState r = .ok (.loadbios file) ∧
      t.outputs = s.outputs ++ [⟨.loaded false, some .biosLoadFailure⟩])

/-- 10 R37, 90 C5: `transfer_state` moves one place along the cycle, returns to `Idle`, stays, or is restored by `PLOAD`. -/
def Obligations.TheSequencerAdvancesOrReturnsToIdle : Prop :=
  ∀ s t : State, step s = .next t →
    t.transferState = s.transferState ∨ t.transferState = s.transferState.successor ∨ t.transferState = .idle ∨
    t.outputs = s.outputs ++ [⟨.restored 5, none⟩]

/-- 00 R12, 20 R64: the history only grows, by at most one event an operation, and each operation returns exactly once. A step
takes exactly the head of the queue; with an empty queue it changes nothing. -/
def Obligations.TheHistoryOnlyGrows : Prop :=
  ∀ s t : State, step s = .next t →
    (s.requests = [] ∧ t = s) ∨
    ((∃ r, s.requests = r :: t.requests) ∧ (∃ x, t.outputs = s.outputs ++ [x]) ∧
      (t.history = s.history ∨ ∃ e, t.history = s.history ++ [e]))

/-- 00 R14: the two blocks share no state. An operation on block BUS neither sees nor changes block PERIPH. -/
def Obligations.BusOperationsNeitherSeeNorChangeThePeripheral : Prop :=
  ∀ (i : Instr) (s : State) ts buttons dx dy px py, OnBus i →
    exec i (withPeripheral ts buttons dx dy px py s) = mapNext (withPeripheral ts buttons dx dy px py) (exec i s)

/-- 00 R14, 46 R200: an operation on block PERIPH neither sees nor changes block BUS. -/
def Obligations.PeripheralOperationsNeitherSeeNorChangeTheBus : Prop :=
  ∀ (i : Instr) (s : State) ram bios usable failed tty, OnPeripheral i →
    exec i (withBus ram bios usable failed tty s) = mapNext (withBus ram bios usable failed tty) (exec i s)

/-- 20 R61: no read changes any state of the hardware; at most it logs, or calls the collaborator. A read that completes leaves
everything but the results and the history, except a narrow DMA read, which is the assertion. -/
def Obligations.NoReadChangesTheHardware : Prop :=
  ∀ (i : Instr) (s t : State) (o : ReadOperands),
    (∃ w r a, i = selectRead w r o a ∧ (r = .dma → w = .word)) → exec i s = .next t →
    t = { s with outputs := t.outputs, history := t.history }

/-! ## RAM and BIOS (40) -/

/-- 40 R110: `RD.RAM.w`. -/
def Obligations.RamReadsReturnTheAddressedBytes : Prop :=
  (∀ f, SelectsRead 0x00000000000 f .rdRamB ∧ SelectsRead 0x01000000000 f .rdRamH ∧ SelectsRead 0x02000000000 f .rdRamW) ∧
  ∀ (s : State) (o : ReadOperands), Ready s →
    ReadsBytes s.ram s.config.ramSize (.rdRamB o) o.offset.toNat 1 s ∧
    ReadsBytes s.ram s.config.ramSize (.rdRamH o) o.offset.toNat 2 s ∧
    ReadsBytes s.ram s.config.ramSize (.rdRamW o) o.offset.toNat 4 s

/-- 40 R112: `WR.RAM.w`. -/
def Obligations.RamWritesStoreExactlyTheirBytes : Prop :=
  (∀ f, SelectsWrite 0x10000000000 f .wrRamB ∧ SelectsWrite 0x11000000000 f .wrRamH ∧ SelectsWrite 0x12000000000 f .wrRamW) ∧
  ∀ (s : State) (o : WriteOperands), Ready s →
    StoresRam (.wrRamB o) o.offset.toNat 1 o.wdata s ∧
    StoresRam (.wrRamH o) o.offset.toNat 2 o.wdata s ∧
    StoresRam (.wrRamW o) o.offset.toNat 4 o.wdata s

/-- 40 R114: `RD.BIOS.w`. -/
def Obligations.BiosReadsReturnTheAddressedBytes : Prop :=
  (∀ f, SelectsRead 0x00100000000 f .rdBiosB ∧ SelectsRead 0x01100000000 f .rdBiosH ∧ SelectsRead 0x02100000000 f .rdBiosW) ∧
  ∀ (s : State) (o : ReadOperands), Ready s →
    ReadsBytes s.bios s.config.biosSize (.rdBiosB o) o.offset.toNat 1 s ∧
    ReadsBytes s.bios s.config.biosSize (.rdBiosH o) o.offset.toNat 2 s ∧
    ReadsBytes s.bios s.config.biosSize (.rdBiosW o) o.offset.toNat 4 s

/-- 40 R116: `WR.BIOS.w` under either policy. -/
def Obligations.BiosWritesFollowThePolicy : Prop :=
  (∀ f, SelectsWrite 0x10100000000 f .wrBiosB ∧ SelectsWrite 0x11100000000 f .wrBiosH ∧
    SelectsWrite 0x12100000000 f .wrBiosW) ∧
  ∀ (s : State) (o : WriteOperands), Ready s →
    StoresBios (.wrBiosB o) o.offset.toNat 1 o.wdata s ∧
    StoresBios (.wrBiosH o) o.offset.toNat 2 o.wdata s ∧
    StoresBios (.wrBiosW o) o.offset.toNat 4 o.wdata s

/-- 20 R52, R64, 40 R119: over the bus, a value written through one mirror is read back, zero-extended, through every mirror,
by the very next operation. -/
def Obligations.AWriteIsReadBackThroughEveryMirror : Prop :=
  ∀ (s : State) (rest : List Request) (w : Width) (a b v cpu cpu' answer : Word), s.config.wf = true → Ready s →
    s.config.ram.contains a = true → s.config.ram.contains b = true →
    a.toNat % s.config.ramSize = b.toNat % s.config.ramSize → a.toNat % s.config.ramSize + w.bytes ≤ s.config.ramSize →
    s.requests = busWriteRequest w cpu a v :: busReadRequest w cpu' b answer :: rest →
    ∃ t, Host.Core.run core 2 s = .next t ∧ t.requests = rest ∧
      t.outputs = s.outputs ++ [⟨.write true, none⟩, ⟨.read true (truncTo w v), none⟩]

/-! ## Expansion Region 2 (41) -/

/-- 41 R131: `RD.EXP2.STATUS.w`. -/
def Obligations.TheStatusReadIsConstant : Prop :=
  SelectsRead 0x00200000000 0x21 .rdExp2StatusB ∧ SelectsRead 0x01200000000 0x21 .rdExp2StatusH ∧
  SelectsRead 0x02200000000 0x21 .rdExp2StatusW ∧
  ∀ (s : State) (o : ReadOperands) (i : Instr), Ready s → i ∈ [Instr.rdExp2StatusB o, .rdExp2StatusH o, .rdExp2StatusW o] →
    exec i s = .next (returning s (.read true s.config.exp2StatusValue))

/-- 41 R133: `WR.EXP2.TTY.w`. -/
def Obligations.TtyWritesAppendFlushOrAreIgnored : Prop :=
  SelectsWrite 0x10200000000 0x23 .wrExp2TtyB ∧ SelectsWrite 0x11200000000 0x23 .wrExp2TtyH ∧
  SelectsWrite 0x12200000000 0x23 .wrExp2TtyW ∧
  ∀ (s : State) (o : WriteOperands), Ready s →
    WritesTty (.wrExp2TtyB o) o.wdata s ∧ WritesTty (.wrExp2TtyH o) o.wdata s ∧ WritesTty (.wrExp2TtyW o) o.wdata s

/-- The model's choice, log 17: a buffer bounded by `TTY_BUF_CAP` and full refuses an append by name. -/
def Obligations.AFullBoundedTtyBufferRefuses : Prop :=
  ∀ (s : State) (o : WriteOperands) (cap : Nat) (i : Instr), Ready s → s.config.ttyBufCap = some cap →
    cap ≤ s.ttyLineBuffer.length → (o.wdata.extractLsb' 0 8 : Byte) ≠ 0x0D → (o.wdata.extractLsb' 0 8 : Byte) ≠ 0x0A →
    i ∈ [Instr.wrExp2TtyB o, .wrExp2TtyH o, .wrExp2TtyW o] → exec i s = .refused .ttyBufferFull

/-- 41 R133, 95 S2: over the bus, the bytes of a line, then a line feed, come out as one log line without the carriage returns,
after whatever the buffer held. -/
def Obligations.ALineWrittenToTheTtyIsLogged : Prop :=
  ∀ (s : State) (rest : List Request) (line : List Byte), s.config.wf = true → Ready s → s.config.ttyBufCap = none →
    (0x0A : Byte) ∉ line → (s.config.ttyFlushEmpty = true ∨ s.ttyLineBuffer ++ line.filter (· ≠ 0x0D) ≠ []) →
    s.requests = ttyPuts s.config (line ++ [0x0A]) ++ rest →
    ∃ t, Host.Core.run core (line.length + 1) s = .next t ∧ t.requests = rest ∧ t.ttyLineBuffer = [] ∧
      t.history = s.history ++ [.logTty (s.ttyLineBuffer ++ line.filter (· ≠ 0x0D))] ∧ t.ram = s.ram ∧ t.bios = s.bios

/-- 41 R135: `WR.EXP2.POST.w`. -/
def Obligations.PostWritesLogTheLowNibble : Prop :=
  SelectsWrite 0x10200000000 0x41 .wrExp2PostB ∧ SelectsWrite 0x11200000000 0x41 .wrExp2PostH ∧
  SelectsWrite 0x12200000000 0x41 .wrExp2PostW ∧
  ∀ (s : State) (o : WriteOperands) (i : Instr), Ready s → i ∈ [Instr.wrExp2PostB o, .wrExp2PostH o, .wrExp2PostW o] →
    exec i s = .next (returning (logging s (.logPost (o.wdata.extractLsb' 0 4))) (.write true))

/-- 41 R137 to R139: every other (direction, offset) pair of the window takes the invalid fallback. -/
def Obligations.UnhandledExpansionAccessesAreInvalid : Prop :=
  (∀ f : Word, f ≠ 0x21 → SelectsRead 0x00200000000 f .rdExp2InvB ∧ SelectsRead 0x01200000000 f .rdExp2InvH ∧
    SelectsRead 0x02200000000 f .rdExp2InvW) ∧
  (∀ f : Word, f ≠ 0x23 → f ≠ 0x41 → SelectsWrite 0x10200000000 f .wrExp2InvB ∧ SelectsWrite 0x11200000000 f .wrExp2InvH ∧
    SelectsWrite 0x12200000000 f .wrExp2InvW) ∧
  (∀ (s : State) (o : ReadOperands), Ready s → ReadsInvalid (.rdExp2InvB o) .byte o s ∧
    ReadsInvalid (.rdExp2InvH o) .halfWord o s ∧ ReadsInvalid (.rdExp2InvW o) .word o s) ∧
  ∀ (s : State) (o : WriteOperands), Ready s → WritesInvalid (.wrExp2InvB o) .byte o s ∧
    WritesInvalid (.wrExp2InvH o) .halfWord o s ∧ WritesInvalid (.wrExp2InvW o) .word o s

/-! ## The sound processor block (42) -/

/-- 42 R151, R152: every read of the window is zero and changes nothing. -/
def Obligations.SoundReadsAreZero : Prop :=
  (SelectsRead 0x00300000000 0x1AE .rdSpuStatB ∧ SelectsRead 0x01300000000 0x1AE .rdSpuStatH ∧
    SelectsRead 0x02300000000 0x1AE .rdSpuStatW) ∧
  (∀ f : Word, f ≠ 0x1AE → SelectsRead 0x00300000000 f .rdSpuB ∧ SelectsRead 0x01300000000 f .rdSpuH ∧
    SelectsRead 0x02300000000 f .rdSpuW) ∧
  ∀ (s : State) (o : ReadOperands) (i : Instr), Ready s →
    i ∈ [Instr.rdSpuStatB o, .rdSpuStatH o, .rdSpuStatW o, .rdSpuB o, .rdSpuH o, .rdSpuW o] →
    exec i s = .next (returning s (.read true 0))

/-- 42 R153 to R155: every write of the window is accepted and dropped, unlogged. -/
def Obligations.SoundWritesAreDropped : Prop :=
  (SelectsWrite 0x10300000000 0x1A8 .wrSpuFifoB ∧ SelectsWrite 0x11300000000 0x1A8 .wrSpuFifoH ∧
    SelectsWrite 0x12300000000 0x1A8 .wrSpuFifoW) ∧
  (SelectsWrite 0x10300000000 0x1AA .wrSpuCtrlB ∧ SelectsWrite 0x11300000000 0x1AA .wrSpuCtrlH ∧
    SelectsWrite 0x12300000000 0x1AA .wrSpuCtrlW) ∧
  (∀ f : Word, f ≠ 0x1A8 → f ≠ 0x1AA → SelectsWrite 0x10300000000 f .wrSpuB ∧ SelectsWrite 0x11300000000 f .wrSpuH ∧
    SelectsWrite 0x12300000000 f .wrSpuW) ∧
  ∀ (s : State) (o : WriteOperands) (i : Instr), Ready s →
    i ∈ [Instr.wrSpuFifoB o, .wrSpuFifoH o, .wrSpuFifoW o, .wrSpuCtrlB o, .wrSpuCtrlH o, .wrSpuCtrlW o, .wrSpuB o,
      .wrSpuH o, .wrSpuW o] →
    exec i s = .next (returning s (.write true))

/-! ## The DMA window (43) -/

/-- 43 R166, R167: a `Word` access is forwarded verbatim; a read returns the collaborator's answer, whatever it is. -/
def Obligations.DmaWordAccessesAreForwarded : Prop :=
  (∀ f c t cpu bus wdata answer, decode c t (.sel (0x02400000000 + BitVec.setWidth 44 f) cpu bus wdata answer)
    = .ok (.rdDmaW ⟨f, cpu, bus⟩ answer)) ∧
  (∀ f, SelectsWrite 0x12400000000 f .wrDmaW) ∧
  (∀ (s : State) (o : ReadOperands) (answer : Word), Ready s →
    exec (.rdDmaW o answer) s = .next (returning (logging s (.dmaRegRead o.offset)) (.read true answer))) ∧
  ∀ (s : State) (o : WriteOperands), Ready s →
    exec (.wrDmaW o) s = .next (returning (logging s (.dmaRegWrite o.offset o.wdata)) (.write true))

/-- 43 R168, 60 R272: a `Byte` or `HalfWord` access fails the block; nothing is forwarded, returned or logged. That it answers a
next state in which the condition is recorded, where 93 U2 speaks of a fault and a stuck state, is the model's choice, log 13. -/
def Obligations.NarrowDmaAccessesFailTheBlock : Prop :=
  (∀ f, SelectsRead 0x00400000000 f .rdDmaB ∧ SelectsRead 0x01400000000 f .rdDmaH ∧
    SelectsWrite 0x10400000000 f .wrDmaB ∧ SelectsWrite 0x11400000000 f .wrDmaH) ∧
  (∀ (s : State) (o : ReadOperands), Ready s → Asserts (.rdDmaB o) .read .byte o.busAddr s ∧
    Asserts (.rdDmaH o) .read .halfWord o.busAddr s) ∧
  ∀ (s : State) (o : WriteOperands), Ready s → Asserts (.wrDmaB o) .write .byte o.busAddr s ∧
    Asserts (.wrDmaH o) .write .halfWord o.busAddr s

/-! ## Invalid accesses (44) -/

/-- 44 R180 to R182: an access in no region completes, logs once and changes nothing; a read is all ones. -/
def Obligations.InvalidAccessesCompleteAndLog : Prop :=
  (∀ f, SelectsRead 0x00700000000 f .rdInvB ∧ SelectsRead 0x01700000000 f .rdInvH ∧ SelectsRead 0x02700000000 f .rdInvW) ∧
  (∀ f, SelectsWrite 0x10700000000 f .wrInvB ∧ SelectsWrite 0x11700000000 f .wrInvH ∧ SelectsWrite 0x12700000000 f .wrInvW) ∧
  (∀ (s : State) (o : ReadOperands), Ready s → ReadsInvalid (.rdInvB o) .byte o s ∧
    ReadsInvalid (.rdInvH o) .halfWord o s ∧ ReadsInvalid (.rdInvW o) .word o s) ∧
  ∀ (s : State) (o : WriteOperands), Ready s → WritesInvalid (.wrInvB o) .byte o s ∧
    WritesInvalid (.wrInvH o) .halfWord o s ∧ WritesInvalid (.wrInvW o) .word o s

/-! ## BIOS load (45) -/

/-- 45 R190, R193: a file of exactly `BIOS_SIZE` bytes loads: the patched bytes are the patches' little-endian bytes, every other
byte is the file's, the bus is usable, and nothing else changes. -/
def Obligations.ALoadOfTheExpectedSizePatchesTheImage : Prop :=
  ∀ (s : State) (content : Bytes), s.config.wf = true → s.busFailed = false →
    (Bytes.toList content).length = s.config.biosSize →
    ∃ m : Memory,
      (∀ p ∈ s.config.biosPatches, ∀ k < 4, m.read (p.1 + k) = p.2.extractLsb' (8 * k) 8) ∧
      (∀ a < s.config.biosSize, (∀ p ∈ s.config.biosPatches, a < p.1 ∨ p.1 + 4 ≤ a) →
        (Bytes.toList content)[a]? = some (m.read a)) ∧
      exec (.loadbios (.bytes content)) s =
        .next (returning { s with bios := m, busUsable := true } (.loaded true))

/-- 45 R191, R192: a file that cannot be opened, has another size or is read short fails the load: the result is false, the bus
is unusable, and RAM, the TTY buffer and block PERIPH are untouched. -/
def Obligations.AFailedLoadLeavesTheBusUnusable : Prop :=
  ∀ (s : State) (file : FileAnswer), s.busFailed = false →
    (∀ content, file = .bytes content → (Bytes.toList content).length ≠ s.config.biosSize) →
    ∃ m n, exec (.loadbios file) s =
      .next (raising { s with bios := m, busUsable := false, draws := n } (.loaded false) .biosLoadFailure)

/-- 45 R193, 95 S3: over the bus, a load and then a `Word` read of a patch offset returns the patched value. -/
def Obligations.APatchedWordReadsBackAfterTheLoad : Prop :=
  ∀ (s : State) (rest : List Request) (content stream : Bytes) (p : Nat × Word) (cpu answer : Word), s.config.wf = true →
    s.busFailed = false → (Bytes.toList content).length = s.config.biosSize → p ∈ s.config.biosPatches →
    s.requests = .hcmd 0x00 (.bytes content) stream ::
      busReadRequest .word cpu (s.config.bios.base + BitVec.ofNat 32 p.1) answer :: rest →
    ∃ t, Host.Core.run core 2 s = .next t ∧
      t.outputs = s.outputs ++ [⟨.loaded true, none⟩, ⟨.read true p.2, none⟩]

/-! ## The peripheral (46, 47) -/

/-- 46 R201 to R204: the rows of `Idle` and `Ready`. -/
def Obligations.SelectAndPollRowsAnswerAsTheTable : Prop :=
  (∀ p, decodeXsel 0x001 p = .ok .xferIdleSel ∧ decodeXsel 0x142 p = .ok .xferReadyPoll) ∧
  (∀ (input : Byte) p, input ≠ 0x01 → decodeXsel (0x000 + input.setWidth 12) p = .ok (.xferIdleOther input)) ∧
  (∀ (input : Byte) p, input ≠ 0x42 → decodeXsel (0x100 + input.setWidth 12) p = .ok (.xferReadyOther input)) ∧
  ∀ (s : State) (input : Byte),
    Transfers .xferIdleSel true 0xFF .ready s ∧ Transfers (.xferIdleOther input) false 0xFF .idle s ∧
    Transfers .xferReadyPoll true 0x12 .idMsb s ∧ Transfers (.xferReadyOther input) false 0xFF .idle s

/-- 46 R205 to R207, R209: the rows that answer with the identifier, the buttons and the latched delta, whatever the input. -/
def Obligations.DataRowsAnswerAsTheTable : Prop :=
  (∀ (input : Byte) p, decodeXsel (0x200 + input.setWidth 12) p = .ok (.xferIdmsb input) ∧
    decodeXsel (0x300 + input.setWidth 12) p = .ok (.xferBtnlsb input) ∧
    decodeXsel (0x400 + input.setWidth 12) p = .ok (.xferBtnmsb input) ∧
    decodeXsel (0x600 + input.setWidth 12) p = .ok (.xferDeltay input)) ∧
  ∀ (s : State) (input : Byte),
    Transfers (.xferIdmsb input) true 0x5A .buttonsLsb s ∧
    Transfers (.xferBtnlsb input) true (s.buttonState.extractLsb' 0 8) .buttonsMsb s ∧
    Transfers (.xferBtnmsb input) true (s.buttonState.extractLsb' 8 8) .deltaX s ∧
    Transfers (.xferDeltay input) false s.deltaY .idle s

/-- 46 R208, R213: the `DeltaX` row samples once, clamps each axis on its own, moves the baseline by the whole motion, and sends
the fresh `delta_x`; for every answer the provider can give. -/
def Obligations.TheDeltaXRowSamplesTheMotion : Prop :=
  (∀ (input : Byte) p, decodeXsel (0x500 + input.setWidth 12) p = .ok (.xferDeltax input p)) ∧
  ∀ (s : State) (input : Byte) (p : Position), s.config.wf = true → s.config.positionFits p = true →
    ∃ dx dy : BitVec 8, dx.toInt = clamped (p.x - s.lastHostPositionX) ∧ dy.toInt = clamped (p.y - s.lastHostPositionY) ∧
      exec (.xferDeltax input p) s = .next (returning { logging s (.pointerPosition p.x p.y) with
        deltaX := dx, deltaY := dy, lastHostPositionX := p.x, lastHostPositionY := p.y, transferState := .deltaY }
        (.transfer true dx))

/-- The model's choice, log 6: an answer outside the coordinates' width acts as its residue in it. -/
def Obligations.AnAnswerOutsideTheWidthActsAsItsResidue : Prop :=
  ∀ (s : State) (input : Byte) (p q : Position), s.config.wf = true → s.config.positionFits q = true →
    (2 ^ s.config.posBits : Int) ∣ p.x - q.x → (2 ^ s.config.posBits : Int) ∣ p.y - q.y →
    exec (.xferDeltax input p) s = exec (.xferDeltax input q) s

/-- 46 R216: the clamp loses motion and the baseline does not. A second sample of an unmoved pointer reports zero on both axes,
whatever the first reported. -/
def Obligations.MotionBeyondTheClampIsLost : Prop :=
  ∀ (s t u : State) (input input' : Byte) (p : Position),
    exec (.xferDeltax input p) s = .next t → exec (.xferDeltax input' p) t = .next u →
    u.deltaX = 0 ∧ u.deltaY = 0 ∧ u.lastHostPositionX = t.lastHostPositionX ∧ u.lastHostPositionY = t.lastHostPositionY

/-- 46 R217: `SampleMotion` runs in the `DeltaX` row and nowhere else: every other operation but `PLOAD` leaves the deltas, and
every other operation leaves the baseline. -/
def Obligations.OnlyTheDeltaXRowSamples : Prop :=
  ∀ (i : Instr) (s t : State), (∀ input p, i ≠ .xferDeltax input p) → exec i s = .next t →
    t.lastHostPositionX = s.lastHostPositionX ∧ t.lastHostPositionY = s.lastHostPositionY ∧
    ((∀ apply stream, i ≠ .pload apply stream) → t.deltaX = s.deltaX ∧ t.deltaY = s.deltaY)

/-- 46 R212: in every row of a transfer `ack` is false exactly when the next state is `Idle`. -/
def Obligations.AckIsFalseExactlyWhenIdleFollows : Prop :=
  ∀ (i : Instr) (s t : State) (row : TransferState), i.transferRow = some row → exec i s = .next t →
    ∃ ack output, t.outputs = s.outputs ++ [⟨.transfer ack output, none⟩] ∧ (ack = false ↔ t.transferState = .idle)

/-- 46 R211 to every state in `Idle`, as the spec derives it from R201 to R209, with the deltas of R213: from `Idle`, the inputs `0x01, 0x42` and five of any value answer identifier, buttons and freshly sampled deltas,
with six true acks and a false one, and end in `Idle`. -/
def Obligations.AFullExchangeReportsButtonsAndMotion : Prop :=
  ∀ (s : State) (rest : List Request) (x1 x2 x3 x4 x5 : Byte) (p q1 q2 q3 q4 q5 q6 : Position), s.config.wf = true →
    s.transferState = .idle → s.config.positionFits p = true →
    s.requests = transferRequest 0x01 q1 :: transferRequest 0x42 q2 :: transferRequest x1 q3 :: transferRequest x2 q4 ::
      transferRequest x3 q5 :: transferRequest x4 p :: transferRequest x5 q6 :: rest →
    ∃ (t : State) (dx dy : BitVec 8), Host.Core.run core 7 s = .next t ∧ t.transferState = .idle ∧ t.requests = rest ∧
      t.buttonState = s.buttonState ∧ t.lastHostPositionX = p.x ∧ t.lastHostPositionY = p.y ∧
      dx.toInt = clamped (p.x - s.lastHostPositionX) ∧ dy.toInt = clamped (p.y - s.lastHostPositionY) ∧
      t.outputs = s.outputs ++ [⟨.transfer true 0xFF, none⟩, ⟨.transfer true 0x12, none⟩, ⟨.transfer true 0x5A, none⟩,
        ⟨.transfer true (s.buttonState.extractLsb' 0 8), none⟩, ⟨.transfer true (s.buttonState.extractLsb' 8 8), none⟩,
        ⟨.transfer true dx, none⟩, ⟨.transfer false dy, none⟩]

/-- 47 R230: `PRESET` returns the engine to `Idle` and touches nothing else. -/
def Obligations.PeripheralResetReturnsToIdleOnly : Prop :=
  SelectsCommand 0x1000 .preset ∧
  ∀ s : State, exec .preset s = .next (returning { s with transferState := .idle } .nothing)

/-- 47 R232: `SETBTN` clears (pressed) or sets (released) the identity's bit of the active-low mask, and no other. -/
def Obligations.AButtonUpdateChangesItsBitOnly : Prop :=
  (∀ c t (identity : Byte) (pressed : Bool) stream p, identity.toNat < c.buttonCount →
    decode c t (.pcmd (0x2000 + (if pressed then 0x100 else 0) + identity.setWidth 16) stream p)
      = .ok (.setbtn identity pressed)) ∧
  ∀ (s : State) (identity : Byte) (pressed : Bool), s.config.wf = true → identity.toNat < s.config.buttonCount →
    ∃ (bit : Nat) (mask : BitVec 16), s.config.buttonBit[identity.toNat]? = some bit ∧
      (∀ k < 16, mask.getLsbD k = if k = bit then !pressed else s.buttonState.getLsbD k) ∧
      exec (.setbtn identity pressed) s = .next (returning { s with buttonState := mask } .nothing)

/-- 47 R233, R234; 60 R274: `SETBTNC` of a code below `BUTTON_COUNT` is `SETBTN` of that code's identity; any other code has no
effect, logs nothing and raises no condition. -/
def Obligations.AButtonCodeIsItsIdentityOrIsIgnored : Prop :=
  (∀ c t (code : Byte) (pressed : Bool) stream p,
    decode c t (.pcmd (0x3000 + (if pressed then 0x100 else 0) + code.setWidth 16) stream p) = .ok (.setbtnc code pressed)) ∧
  ∀ (s : State) (code : Byte) (pressed : Bool),
    (s.config.wf = true → code.toNat < s.config.buttonCount →
      ∃ (identity bit : Nat) (mask : BitVec 16), s.config.buttonCode[code.toNat]? = some identity ∧
        s.config.buttonBit[identity]? = some bit ∧
        (∀ k < 16, mask.getLsbD k = if k = bit then !pressed else s.buttonState.getLsbD k) ∧
        exec (.setbtnc code pressed) s = .next (returning { s with buttonState := mask } .nothing) ∧
        (∀ id : Byte, id.toNat = identity → exec (.setbtnc code pressed) s = exec (.setbtn id pressed) s)) ∧
    (s.config.buttonCount ≤ code.toNat →
      exec (.setbtnc code pressed) s = .next (returning s .nothing))

/-- 47 R232, 90 C8: pressing and then releasing a button that was released leaves the whole mask as it was. -/
def Obligations.PressThenReleaseIsARoundTrip : Prop :=
  ∀ (s t u : State) (identity : Byte) (bit : Nat), s.config.wf = true →
    s.config.buttonBit[identity.toNat]? = some bit → s.buttonState.getLsbD bit = true →
    exec (.setbtn identity true) s = .next t → exec (.setbtn identity false) t = .next u →
    t.buttonState.getLsbD bit = false ∧ u.buttonState = s.buttonState

/-- 47 R236, R237: the capability queries. -/
def Obligations.CapabilityQueriesReportConstants : Prop :=
  SelectsCommand 0x6000 .gettype ∧ SelectsCommand 0x7000 .getvmc ∧
  ∀ s : State, exec .gettype s = .next (returning s (.deviceType s.config.deviceType)) ∧
    exec .getvmc s = .next (returning s (.motorCount 0))

/-! ## Save and restore (48) -/

/-- 48 R252: `PSAVE` emits the four fields in order and changes nothing. -/
def Obligations.ThePeripheralSnapshotHasFiveBytes : Prop :=
  SelectsCommand 0x4000 .psave ∧
  ∀ s : State, ∃ bytes : Bytes,
    Bytes.toList bytes = [s.buttonState.extractLsb' 0 8, s.buttonState.extractLsb' 8 8, s.deltaX, s.deltaY,
      BitVec.ofNat 8 s.transferState.code] ∧
    exec .psave s = .next (returning s (.saved bytes))

/-- 48 R253, R254: `PLOAD` consumes five bytes, always restores the state, restores the input fields only on request, never the
baseline; a stream that is short or names no state is refused. That a stream with bytes after the fifth is restored and the rest
left unread is the model's choice, log 16. -/
def Obligations.PeripheralRestoreAppliesInputOnRequest : Prop :=
  (∀ c t stream p, decode c t (.pcmd 0x5000 stream p) = .ok (.pload false stream) ∧
    decode c t (.pcmd 0x5001 stream p) = .ok (.pload true stream)) ∧
  (∀ (s : State) (apply : Bool) (stream : Bytes) (low high dx dy code : Byte) (more : List Byte) (t : TransferState),
    Bytes.toList stream = low :: high :: dx :: dy :: code :: more → code.toNat = t.code →
    exec (.pload apply stream) s = .next (returning { s with
      buttonState := if apply then high ++ low else s.buttonState
      deltaX := if apply then dx else s.deltaX
      deltaY := if apply then dy else s.deltaY
      transferState := t } (.restored 5))) ∧
  (∀ (s : State) (apply : Bool) (stream : Bytes) (low high dx dy code : Byte) (more : List Byte),
    Bytes.toList stream = low :: high :: dx :: dy :: code :: more → 6 < code.toNat →
    exec (.pload apply stream) s = .refused .noSuchState) ∧
  ∀ (s : State) (apply : Bool) (stream : Bytes), (Bytes.toList stream).length < 5 →
    exec (.pload apply stream) s = .refused .shortStream

/-- 48 R256: a save and a restore: the state is always the saved one; the input fields are the live ones with the apply flag off,
the saved ones with it on. -/
def Obligations.PeripheralSnapshotRoundTrip : Prop :=
  ∀ (s u : State) (bytes : Bytes) (apply : Bool), exec .psave s = .next (returning s (.saved bytes)) →
    ∃ t, exec (.pload apply bytes) u = .next t ∧ t.transferState = s.transferState ∧
      t.buttonState = (if apply then s.buttonState else u.buttonState) ∧
      t.deltaX = (if apply then s.deltaX else u.deltaX) ∧ t.deltaY = (if apply then s.deltaY else u.deltaY) ∧
      t.lastHostPositionX = u.lastHostPositionX ∧ t.lastHostPositionY = u.lastHostPositionY

/-- 48 R258: `BSAVE` emits RAM, the BIOS image, the 32-bit length of the TTY buffer and the buffer, and changes nothing. That the
length of a buffer of 2^32 bytes or more is emitted modulo 2^32 is the model's choice, log 20. -/
def Obligations.TheBusSnapshotHoldsRamBiosAndTty : Prop :=
  (∀ c t file stream, decode c t (.hcmd 0x10 file stream) = .ok .bsave) ∧
  ∀ s : State, Ready s → ∃ bytes : Bytes,
    Bytes.toList bytes = (List.range s.config.ramSize).map s.ram.read ++ (List.range s.config.biosSize).map s.bios.read ++
      (List.range 4).map (fun k => BitVec.ofNat 8 (s.ttyLineBuffer.length / 256 ^ k)) ++ s.ttyLineBuffer ∧
    exec .bsave s = .next (returning s (.saved bytes))

/-- 48 R259: `BLOAD` restores RAM, the BIOS image and the TTY buffer and makes the bus usable; a stream that is too short is
refused. That a stream longer than its fields is restored and the rest left unread is the model's choice, log 16. -/
def Obligations.TheBusRestoreReadsTheSnapshot : Prop :=
  (∀ c t file stream, decode c t (.hcmd 0x20 file stream) = .ok (.bload stream)) ∧
  ∀ (s : State) (stream : Bytes) (l : List Byte) (n : Nat), s.busFailed = false → Bytes.toList stream = l →
    (l.length < s.config.ramSize + s.config.biosSize + 4 → exec (.bload stream) s = .refused .shortStream) ∧
    (s.config.ramSize + s.config.biosSize + 4 ≤ l.length →
      n = ∑ k ∈ Finset.range 4, (l.getD (s.config.ramSize + s.config.biosSize + k) 0).toNat * 256 ^ k →
      (l.length < s.config.ramSize + s.config.biosSize + 4 + n → exec (.bload stream) s = .refused .shortStream) ∧
      (s.config.ramSize + s.config.biosSize + 4 + n ≤ l.length → ∃ ram bios : Memory,
        (∀ a < s.config.ramSize, l[a]? = some (ram.read a)) ∧
        (∀ a < s.config.biosSize, l[s.config.ramSize + a]? = some (bios.read a)) ∧
        exec (.bload stream) s = .next (returning { s with
          ram := ram, bios := bios, busUsable := true
          ttyLineBuffer := (l.drop (s.config.ramSize + s.config.biosSize + 4)).take n }
          (.restored (s.config.ramSize + s.config.biosSize + 4 + n)))))

/-- 48 R258, R259: a bus snapshot restored on a machine with the same parameters gives back every byte of RAM and of the BIOS
image and the TTY buffer, and leaves block PERIPH alone. -/
def Obligations.BusSnapshotRoundTrip : Prop :=
  ∀ (s u : State) (bytes : Bytes), Ready s → u.busFailed = false → u.config = s.config → s.ttyLineBuffer.length < 2 ^ 32 →
    exec .bsave s = .next (returning s (.saved bytes)) →
    ∃ t, exec (.bload bytes) u = .next t ∧ t.busUsable = true ∧ t.ttyLineBuffer = s.ttyLineBuffer ∧
      (∀ a < s.config.ramSize, t.ram.read a = s.ram.read a) ∧ (∀ a < s.config.biosSize, t.bios.read a = s.bios.read a) ∧
      t.transferState = u.transferState ∧ t.buttonState = u.buttonState ∧ t.deltaX = u.deltaX ∧ t.deltaY = u.deltaY ∧
      t.lastHostPositionX = u.lastHostPositionX ∧ t.lastHostPositionY = u.lastHostPositionY ∧ t.history = u.history

/-! ## Construction (70) -/

/-- 70 R300, R301: what construction leaves. Two clauses are the model's choice. The history starts empty: R300 says that no log
event is emitted, and that the one pointer sample of R301 is not listed is log 5. The contents of RAM and of the BIOS image are
the free values of logs 3 and 4: nothing is stated of them but that they are unspecified ones. -/
def Obligations.ConstructionLeavesTheDocumentedState : Prop :=
  ∀ (c : Config) (p : Position), c.wf = true → c.positionFits p = true →
    let s := State.construct c p
    s.ttyLineBuffer = [] ∧ s.busUsable = false ∧ s.busFailed = false ∧ s.history = [] ∧
    (∃ d, ∀ a, s.ram.read a = Config.unspecifiedByte d a) ∧ (∃ d, ∀ a, s.bios.read a = Config.unspecifiedByte d a) ∧
    s.transferState = .idle ∧ s.lastHostPositionX = p.x ∧ s.lastHostPositionY = p.y ∧
    s.buttonState = c.buttonStateInit ∧ s.deltaX = c.deltaInit ∧ s.deltaY = c.deltaInit ∧
    (∀ i, (tableWord i).1 = .sel → exec i s = .refused .busNotUsable)
end

