-- ==== Sys2Proof/Laws/Decode.lean ====
section
/-! SUPPORT. The fields of the words the encoder builds, the codes and what they decode to, and the address map. -/

namespace Sys2Proof

/-! ## Codes -/

@[simp] theorem Direction.ofCode_code (d : Direction) : Direction.ofCode d.code = some d := by cases d <;> rfl
@[simp] theorem Width.ofCode_code (w : Width) : Width.ofCode w.code = some w := by cases w <;> rfl
@[simp] theorem Region.ofCode_code (r : Region) : Region.ofCode r.code = some r := by cases r <;> rfl
@[simp] theorem TransferState.ofCode_code (t : TransferState) : TransferState.ofCode t.code = some t := by cases t <;> rfl

theorem TransferState.code_lt (t : TransferState) : t.code < 7 := by cases t <;> decide

theorem TransferState.ofCode_eq_some {n : Nat} {t : TransferState} (h : TransferState.ofCode n = some t) : n = t.code := by
  unfold TransferState.ofCode at h
  split at h <;> cases h <;> rfl

theorem Direction.code_of_ofCode {n : BitVec 4} {d : Direction} (h : Direction.ofCode n = some d) : d.code = n := by
  unfold Direction.ofCode at h
  split at h <;> cases h <;> (apply BitVec.eq_of_toNat_eq; simp_all [Direction.code])

theorem Width.code_of_ofCode {n : BitVec 4} {w : Width} (h : Width.ofCode n = some w) : w.code = n := by
  unfold Width.ofCode at h
  split at h <;> cases h <;> (apply BitVec.eq_of_toNat_eq; simp_all [Width.code])

/-! ## Fields -/

theorem append_low {m n : Nat} (a : BitVec m) (b : BitVec n) : (a ++ b).extractLsb' 0 n = b := by
  ext i hi; simp [BitVec.getElem_extractLsb', BitVec.getLsbD_append, hi]

theorem append_high {m n : Nat} (a : BitVec m) (b : BitVec n) : (a ++ b).extractLsb' n m = a := by
  ext i hi; simp [BitVec.getElem_extractLsb', BitVec.getLsbD_append, hi]

theorem append_part {m n : Nat} (a : BitVec m) (b : BitVec n) (start len : Nat) :
    (a ++ b).extractLsb' (n + start) len = a.extractLsb' start len := by
  ext i hi
  simp only [BitVec.getElem_extractLsb', BitVec.getLsbD_append]
  rw [if_neg (by omega)]
  congr 1; omega

@[simp] theorem txnWord_direction (d : Direction) (w : Width) (a v : Word) : (txnWord d w a v).extractLsb' 68 4 = d.code := by
  rw [show (68 : Nat) = 32 + 36 by rfl, txnWord, append_part, show (36 : Nat) = 32 + 4 by rfl, append_part, append_high]

@[simp] theorem txnWord_width (d : Direction) (w : Width) (a v : Word) : (txnWord d w a v).extractLsb' 64 4 = w.code := by
  rw [show (64 : Nat) = 32 + (32 + 0) by rfl, txnWord, append_part, append_part, append_low]

@[simp] theorem txnWord_busAddr (d : Direction) (w : Width) (a v : Word) : (txnWord d w a v).extractLsb' 32 32 = a :=
  (append_part _ _ 0 32).trans (append_low _ _)

@[simp] theorem txnWord_wdata (d : Direction) (w : Width) (a v : Word) : (txnWord d w a v).extractLsb' 0 32 = v :=
  append_low _ _

@[simp] theorem pcmdWord_cmd (cmd : BitVec 4) (arg : BitVec 12) : (pcmdWord cmd arg).extractLsb' 12 4 = cmd := append_high _ _

@[simp] theorem pcmdWord_arg (cmd : BitVec 4) (arg : BitVec 12) : (pcmdWord cmd arg).extractLsb' 0 12 = arg := append_low _ _

/-- A part of `arg` of a `PCMD` word. -/
theorem pcmdWord_argPart (cmd : BitVec 4) (arg : BitVec 12) {start len : Nat} (h : start + len ≤ 12) :
    (pcmdWord cmd arg).extractLsb' start len = arg.extractLsb' start len := by
  ext i hi
  simp only [pcmdWord, BitVec.getElem_extractLsb', BitVec.getLsbD_append]
  rw [if_pos (by omega)]

theorem pcmdWord_argBit (cmd : BitVec 4) (arg : BitVec 12) {i : Nat} (h : i < 12) :
    (pcmdWord cmd arg).getLsbD i = arg.getLsbD i := by
  simp only [pcmdWord, BitVec.getLsbD_append]
  rw [if_pos h]

@[simp] theorem buttonArg_code (code : Byte) (p : Bool) : (buttonArg code p).extractLsb' 0 8 = code := append_low _ _

@[simp] theorem buttonArg_unused (code : Byte) (p : Bool) : (buttonArg code p).extractLsb' 9 3 = 0 := by
  rw [show (9 : Nat) = 8 + 1 by rfl, buttonArg, append_part]
  exact append_high _ _

@[simp] theorem buttonArg_pressed (code : Byte) (p : Bool) : (buttonArg code p).getLsbD 8 = p := by
  simp only [buttonArg, BitVec.getLsbD_append]
  cases p <;> rfl

@[simp] theorem hcmdWord_cmd (cmd : BitVec 4) : (hcmdWord cmd).extractLsb' 4 4 = cmd := append_high _ _

@[simp] theorem hcmdWord_zero (cmd : BitVec 4) : (hcmdWord cmd).extractLsb' 0 4 = 0 := append_low _ _

@[simp] theorem xselWord_state (t : TransferState) (b : Byte) : (xselWord t b).extractLsb' 8 4 = BitVec.ofNat 4 t.code :=
  append_high _ _

@[simp] theorem xselWord_input (t : TransferState) (b : Byte) : (xselWord t b).extractLsb' 0 8 = b := append_low _ _

@[simp] theorem code_toNat (t : TransferState) : (BitVec.ofNat 4 t.code).toNat = t.code := by cases t <;> rfl

@[simp] theorem Selector.word_direction (s : Selector) : s.word.extractLsb' 40 4 = s.direction.code := by
  rw [show (40 : Nat) = 32 + (4 + 4) by rfl, Selector.word, append_part, append_part]
  exact append_high _ _

@[simp] theorem Selector.word_width (s : Selector) : s.word.extractLsb' 36 4 = s.width.code := by
  rw [show (36 : Nat) = 32 + (4 + 0) by rfl, Selector.word, append_part, append_part]
  exact append_low _ _

@[simp] theorem Selector.word_region (s : Selector) : s.word.extractLsb' 32 4 = s.region.code :=
  (append_part _ _ 0 4).trans (append_low _ _)

@[simp] theorem Selector.word_offset (s : Selector) : s.word.extractLsb' 0 32 = s.offset := append_low _ _

/-- A selector's word decodes to the selector. -/
theorem decodeSel_word (s : Selector) : decodeSel s.word = .ok s := by
  simp [decodeSel, decodeAccess]

/-- A transfer's selector decodes to its row (30 R90). -/
theorem decodeXsel_word (t : TransferState) (input : Byte) (pointer : Position) :
    decodeXsel (xselWord t input) pointer = .ok (selectTransfer t input pointer) := by
  rw [decodeXsel, xselWord_state, xselWord_input, code_toNat, TransferState.ofCode_code]

/-- A selector's word as its row's pattern plus the offset (30 R83). -/
theorem Selector.word_eq_add (s : Selector) :
    s.word = BitVec.ofNat 44 ((s.direction.code ++ s.width.code ++ s.region.code).toNat * 2 ^ 32) + s.offset.setWidth 44 := by
  have hp := (s.direction.code ++ s.width.code ++ s.region.code).isLt
  have ho := s.offset.isLt
  apply BitVec.eq_of_toNat_eq
  have := BitVec.toNat_append (s.direction.code ++ s.width.code ++ s.region.code) s.offset
  rw [← Nat.shiftLeft_add_eq_or_of_lt ho, Nat.shiftLeft_eq] at this
  refine this.trans ?_
  rw [BitVec.toNat_add, BitVec.toNat_ofNat, BitVec.toNat_setWidth]
  omega

/-! ## Windows -/

theorem Window.contains_iff (w : Window) (a : Word) :
    w.contains a = true ↔ w.base.toNat ≤ a.toNat ∧ a.toNat < w.base.toNat + w.size := by simp [Window.contains]

/-- Disjoint windows share no address (00 R8). -/
theorem Window.not_contains_of_disjoint {v w : Window} (h : v.disjoint w = true) {a : Word} (hv : v.contains a = true) :
    w.contains a = false := by
  rw [Window.contains_iff] at hv
  by_contra hw
  rw [Bool.not_eq_false, Window.contains_iff] at hw
  simp only [Window.disjoint, Bool.or_eq_true, beq_iff_eq, decide_eq_true_eq] at h
  omega

theorem Window.disjoint_comm (v w : Window) : v.disjoint w = w.disjoint v := by
  simp only [Window.disjoint, Bool.or_comm, Bool.or_left_comm, Bool.or_assoc]

/-- The ten pairs of 00 R8.4. -/
theorem Config.disjoint_of_wf {c : Config} (h : c.wf = true) :
    c.ram.disjoint c.bios = true ∧ c.ram.disjoint c.exp2 = true ∧ c.ram.disjoint c.spu = true ∧ c.ram.disjoint c.dma = true ∧
    c.bios.disjoint c.exp2 = true ∧ c.bios.disjoint c.spu = true ∧ c.bios.disjoint c.dma = true ∧
    c.exp2.disjoint c.spu = true ∧ c.exp2.disjoint c.dma = true ∧ c.spu.disjoint c.dma = true := by
  simp only [Config.wf, Config.windowsDisjoint, Bool.and_eq_true] at h
  tauto

end Sys2Proof
end

