-- ==== Sys2Proof/Laws/Memory.lean ====
section
/-! SUPPORT. Byte sequences and buffers: what each operation's result reads as, and that every operation keeps the canonical
form. -/

namespace Sys2Proof

/-! ## Byte sequences -/

@[simp] theorem Bytes.toList_nil : Bytes.toList [] = [] := rfl

@[simp] theorem Bytes.toList_cons (r : Run) (rest : Bytes) :
    Bytes.toList (r :: rest) = List.replicate r.count r.byte ++ Bytes.toList rest := by
  simp [Bytes.toList]

@[simp] theorem Bytes.toList_append (a b : Bytes) : Bytes.toList (a ++ b) = Bytes.toList a ++ Bytes.toList b := by
  simp [Bytes.toList]

@[simp] theorem Bytes.toList_ofList (l : List Byte) : Bytes.toList (Bytes.ofList l) = l := by
  induction l with
  | nil => rfl
  | cons x xs ih => simpa [Bytes.ofList] using ih

theorem Bytes.size_eq_length (b : Bytes) : Bytes.size b = (Bytes.toList b).length := by
  induction b with
  | nil => rfl
  | cons r rest ih => simpa [Bytes.size] using ih

@[simp] theorem Bytes.toList_take (n : Nat) (b : Bytes) : Bytes.toList (Bytes.take n b) = (Bytes.toList b).take n := by
  induction b generalizing n with
  | nil => simp [Bytes.take]
  | cons r rest ih =>
    simp only [Bytes.take, Bytes.toList_cons, List.take_append, List.take_replicate, List.length_replicate]
    split
    · next h => simp [Nat.min_eq_left h, Nat.sub_eq_zero_of_le h]
    · next h => simp [ih, Nat.min_eq_right (by omega : r.count ≤ n)]

@[simp] theorem Bytes.toList_drop (n : Nat) (b : Bytes) : Bytes.toList (Bytes.drop n b) = (Bytes.toList b).drop n := by
  induction b generalizing n with
  | nil => simp [Bytes.drop]
  | cons r rest ih =>
    simp only [Bytes.drop, Bytes.toList_cons, List.drop_append, List.drop_replicate, List.length_replicate]
    split
    · next h => simp [Nat.sub_eq_zero_of_le h]
    · next h => simp [ih, Nat.sub_eq_zero_of_le (by omega : r.count ≤ n)]

namespace Machine

/-! ## Cells -/

theorem lookupCell_setCell_same (o : Nat) (b : Byte) (cells : List Host.Cell) : lookupCell o (setCell o b cells) = some b := by
  induction cells with
  | nil => simp [setCell, lookupCell]
  | cons c rest ih =>
    obtain ⟨k, v⟩ := c
    simp only [setCell]
    split
    · simp [lookupCell]
    · split
      · simp [lookupCell]
      · next h => simp [lookupCell, Ne.symm h, ih]

theorem lookupCell_setCell_other {o k : Nat} (h : k ≠ o) (b : Byte) (cells : List Host.Cell) :
    lookupCell k (setCell o b cells) = lookupCell k cells := by
  induction cells with
  | nil => simp [setCell, lookupCell, h.symm]
  | cons c rest ih =>
    obtain ⟨j, v⟩ := c
    simp only [setCell]
    split
    · simp [lookupCell, h.symm]
    · split
      · next e => subst e; simp [lookupCell, h.symm]
      · simp [lookupCell, ih]

theorem lookupCell_dropCell (o k : Nat) (cells : List Host.Cell) :
    lookupCell k (dropCell o cells) = if k = o then none else lookupCell k cells := by
  induction cells with
  | nil => simp [dropCell, lookupCell]
  | cons c rest ih =>
    obtain ⟨j, v⟩ := c
    have hd : dropCell o ((j, v) :: rest) = if j = o then dropCell o rest else (j, v) :: dropCell o rest := by
      by_cases hj : j = o <;> simp [dropCell, hj]
    rw [hd]
    by_cases hj : j = o
    · subst hj
      by_cases hk : k = j
      · subst hk; simp [ih]
      · simp [lookupCell, hk, Ne.symm hk, ih]
    · by_cases hk : j = k
      · subst hk; simp [lookupCell, hj]
      · simp [lookupCell, hj, hk, ih]

theorem Fill.byteAt_of_knownToBe {f : Fill} {b : Byte} (h : f.knownToBe b = true) (o : Nat) : f.byteAt o = b := by
  cases f with
  | zero => exact (show b = 0 by simpa [Fill.knownToBe] using h).symm
  | unspecified draw => simp [Fill.knownToBe] at h

/-! ## Reading and writing -/

theorem Memory.read_write (m : Memory) (o k : Nat) (b : Byte) : (m.write o b).read k = if k = o then b else m.read k := by
  unfold Memory.write Memory.read
  split
  · next h =>
    by_cases hk : k = o
    · simp [lookupCell_dropCell, hk, Fill.byteAt_of_knownToBe h]
    · simp [lookupCell_dropCell, hk]
  · by_cases hk : k = o
    · subst hk; simp [lookupCell_setCell_same]
    · simp [lookupCell_setCell_other hk, hk]

@[simp] theorem Memory.write_fill (m : Memory) (o : Nat) (b : Byte) : (m.write o b).fill = m.fill := by
  unfold Memory.write; split <;> rfl

@[simp] theorem Memory.storeLE_fill (m : Memory) (o : Nat) (v : Word) (n : Nat) : (m.storeLE o v n).fill = m.fill := by
  induction n with
  | zero => rfl
  | succ n ih => simp [Memory.storeLE, ih]

theorem Memory.read_storeLE (m : Memory) (o : Nat) (v : Word) (n k : Nat) :
    (m.storeLE o v n).read k = if o ≤ k ∧ k < o + n then v.extractLsb' (8 * (k - o)) 8 else m.read k := by
  induction n with
  | zero => rw [if_neg (by omega)]; rfl
  | succ n ih =>
    simp only [Memory.storeLE, Memory.read_write, ih]
    by_cases hk : k = o + n
    · subst hk; simp
    · have : (o ≤ k ∧ k < o + n) ↔ (o ≤ k ∧ k < o + (n + 1)) := by omega
      simp only [hk, if_false, this]

theorem Memory.loadLE_congr {m m' : Memory} {o n : Nat} (h : ∀ i < n, m.read (o + i) = m'.read (o + i)) :
    m.loadLE o n = m'.loadLE o n := by
  induction n with
  | zero => rfl
  | succ n ih => simp [Memory.loadLE, ih fun i hi => h i (by omega), h n (by omega)]

theorem Memory.loadLE_lt (m : Memory) (o n : Nat) : m.loadLE o n < 2 ^ (8 * n) := by
  induction n with
  | zero => simp [Memory.loadLE]
  | succ n ih =>
    have hb := (m.read (o + n)).isLt
    have : 2 ^ (8 * (n + 1)) = 2 ^ (8 * n) * 256 := by rw [show 8 * (n + 1) = 8 * n + 8 by ring, pow_add]; norm_num
    simp only [Memory.loadLE, this]
    nlinarith

theorem Memory.loadLE_storeLE_same (m : Memory) (o : Nat) (v : Word) (n : Nat) :
    (m.storeLE o v n).loadLE o n = v.toNat % 2 ^ (8 * n) := by
  have key : ∀ j ≤ n, (m.storeLE o v n).loadLE o j = v.toNat % 2 ^ (8 * j) := by
    intro j hj
    induction j with
    | zero => simp [Memory.loadLE, Nat.mod_one]
    | succ j ih =>
      have hr : (m.storeLE o v n).read (o + j) = v.extractLsb' (8 * j) 8 := by
        rw [Memory.read_storeLE, if_pos (by omega)]; simp
      have hm : v.toNat % 2 ^ (8 * (j + 1)) = v.toNat % 2 ^ (8 * j) + 2 ^ (8 * j) * (v.toNat / 2 ^ (8 * j) % 256) := by
        rw [show 8 * (j + 1) = 8 * j + 8 by ring, pow_add, Nat.mod_mul]; norm_num
      simp only [Memory.loadLE, ih (by omega), hr, BitVec.extractLsb'_toNat, Nat.shiftRight_eq_div_pow, hm]
      ring
  exact key n le_rfl

/-! ## The canonical form -/

theorem risingFrom_mono {a b : Nat} (h : a ≤ b) {cells : List Host.Cell} (hr : risingFrom b cells = true) :
    risingFrom a cells = true := by
  cases cells with
  | nil => rfl
  | cons c rest => simp only [risingFrom, Bool.and_eq_true, decide_eq_true_eq] at hr ⊢; exact ⟨by omega, hr.2⟩

theorem risingFrom_setCell {low o : Nat} (h : low ≤ o) (b : Byte) {cells : List Host.Cell} (hr : risingFrom low cells = true) :
    risingFrom low (setCell o b cells) = true := by
  induction cells generalizing low with
  | nil => simp [setCell, risingFrom, h]
  | cons c rest ih =>
    obtain ⟨k, v⟩ := c
    simp only [risingFrom, Bool.and_eq_true, decide_eq_true_eq] at hr
    simp only [setCell]
    split
    · next hk => simp [risingFrom, h, hr.2]; omega
    · split
      · next hk => subst hk; simp [risingFrom, h, hr.2]
      · next h1 h2 => simp [risingFrom, hr.1, ih (by omega) hr.2]

theorem risingFrom_dropCell {low : Nat} (o : Nat) {cells : List Host.Cell} (hr : risingFrom low cells = true) :
    risingFrom low (dropCell o cells) = true := by
  induction cells generalizing low with
  | nil => rfl
  | cons c rest ih =>
    obtain ⟨k, v⟩ := c
    simp only [risingFrom, Bool.and_eq_true, decide_eq_true_eq] at hr
    have ih' := ih hr.2
    simp only [dropCell, List.filter_cons] at ih' ⊢
    split
    · simp [risingFrom, hr.1, ih']
    · exact risingFrom_mono (by omega) ih'

theorem mem_setCell {o : Nat} {b : Byte} {cells : List Host.Cell} {c : Host.Cell} (h : c ∈ setCell o b cells) :
    c = (o, b) ∨ c ∈ cells := by
  induction cells with
  | nil => simpa [setCell] using h
  | cons d rest ih =>
    obtain ⟨k, v⟩ := d
    simp only [setCell] at h
    split at h
    · simpa using h
    · split at h
      · rcases List.mem_cons.1 h with h | h
        · exact .inl h
        · exact .inr (List.mem_cons_of_mem _ h)
      · rcases List.mem_cons.1 h with h | h
        · exact .inr (by simp [h])
        · exact (ih h).imp_right (List.mem_cons_of_mem _)

theorem Memory.wf_iff (size : Nat) (m : Memory) :
    m.wf size = true ↔ risingFrom 0 m.cells = true ∧ ∀ c ∈ m.cells, c.1 < size ∧ m.fill.knownToBe c.2 = false := by
  simp [Memory.wf]

theorem Memory.wf_empty (size : Nat) (f : Fill) : Memory.wf size ⟨f, []⟩ = true := rfl

theorem Memory.wf_write {size : Nat} {m : Memory} (h : m.wf size = true) {o : Nat} (ho : o < size) (b : Byte) :
    (m.write o b).wf size = true := by
  rw [Memory.wf_iff] at h ⊢
  unfold Memory.write
  split
  · exact ⟨risingFrom_dropCell o h.1, fun c hc => h.2 c (List.mem_of_mem_filter hc)⟩
  · next hk =>
    refine ⟨risingFrom_setCell (Nat.zero_le _) b h.1, fun c hc => ?_⟩
    rcases mem_setCell hc with rfl | hc
    · exact ⟨ho, by simpa using hk⟩
    · exact h.2 c hc

theorem Memory.wf_storeLE {size : Nat} {m : Memory} (h : m.wf size = true) {o n : Nat} (ho : o + n ≤ size) (v : Word) :
    (m.storeLE o v n).wf size = true := by
  induction n with
  | zero => exact h
  | succ n ih => exact Memory.wf_write (ih (by omega)) (by omega) _

/-! ## Buffers from byte sequences -/

theorem lookupCell_append (k : Nat) (a b : List Host.Cell) :
    lookupCell k (a ++ b) = (lookupCell k a).or (lookupCell k b) := by
  induction a with
  | nil => rfl
  | cons c rest ih => obtain ⟨j, v⟩ := c; simp only [List.cons_append, lookupCell]; split <;> simp [ih]

theorem lookupCell_run (o k : Nat) (b : Byte) (n : Nat) :
    lookupCell k ((List.range n).map fun i => (o + i, b)) = if o ≤ k ∧ k < o + n then some b else none := by
  induction n with
  | zero => rw [if_neg (by omega)]; rfl
  | succ n ih =>
    rw [List.range_succ, List.map_append, lookupCell_append, ih]
    simp only [List.map_cons, List.map_nil, lookupCell]
    by_cases h1 : o ≤ k ∧ k < o + n
    · simp [h1.1, h1.2, show k < o + (n + 1) by omega]
    · by_cases h2 : o + n = k
      · subst h2; simp
      · rw [if_neg h1, if_neg h2, if_neg (by omega)]; rfl

theorem lookupCell_cellsFrom_below {o k : Nat} (h : k < o) (b : Bytes) : lookupCell k (cellsFrom o b) = none := by
  induction b generalizing o with
  | nil => rfl
  | cons r rest ih =>
    rw [cellsFrom, lookupCell_append, ih (by omega)]
    split
    · rfl
    · rw [lookupCell_run, if_neg (by omega)]; rfl

theorem lookupCell_cellsFrom (o : Nat) (b : Bytes) (i : Nat) :
    (lookupCell (o + i) (cellsFrom o b)).getD 0 = (Bytes.toList b).getD i 0 := by
  induction b generalizing o i with
  | nil => simp [cellsFrom, lookupCell]
  | cons r rest ih =>
    rw [cellsFrom, lookupCell_append, Bytes.toList_cons]
    by_cases hi : i < r.count
    · rw [List.getD_append _ _ _ _ (by simpa using hi), lookupCell_cellsFrom_below (by omega)]
      split
      · next h0 => simp [lookupCell, hi, h0]
      · rw [lookupCell_run, if_pos (by omega)]; simp [hi]
    · rw [List.getD_append_right _ _ _ _ (by simpa using hi), List.length_replicate]
      have hl : lookupCell (o + i) (if r.byte = 0 then [] else (List.range r.count).map fun i => (o + i, r.byte)) = none := by
        split
        · rfl
        · rw [lookupCell_run, if_neg (by omega)]
      rw [hl, Option.none_or, ← ih (o + r.count) (i - r.count)]
      congr 2; omega

theorem Memory.read_ofBytes (b : Bytes) (i : Nat) : (Memory.ofBytes b).read i = (Bytes.toList b).getD i 0 := by
  simpa [Memory.read, Memory.ofBytes, Fill.byteAt] using lookupCell_cellsFrom 0 b i

theorem risingFrom_run_append {low o n : Nat} {b : Byte} (h : low ≤ o) {rest : List Host.Cell}
    (hr : risingFrom (o + n) rest = true) : risingFrom low (((List.range n).map fun i => (o + i, b)) ++ rest) = true := by
  induction n generalizing low o with
  | zero => exact risingFrom_mono (by omega) hr
  | succ n ih =>
    rw [List.range_succ_eq_map]
    simp only [List.map_cons, List.map_map, List.cons_append, risingFrom, Nat.add_zero, Bool.and_eq_true, decide_eq_true_eq]
    refine ⟨h, ?_⟩
    have := @ih (o + 1) (o + 1) le_rfl (by rw [show o + 1 + n = o + (n + 1) by omega]; exact hr)
    simpa [Function.comp_def, Nat.add_assoc, Nat.add_comm 1] using this

theorem risingFrom_cellsFrom (o : Nat) (b : Bytes) : risingFrom o (cellsFrom o b) = true := by
  induction b generalizing o with
  | nil => rfl
  | cons r rest ih =>
    rw [cellsFrom]
    split
    · exact risingFrom_mono (by omega) (ih _)
    · exact risingFrom_run_append le_rfl (ih _)

theorem mem_cellsFrom {o : Nat} {b : Bytes} {c : Host.Cell} (h : c ∈ cellsFrom o b) : c.1 < o + Bytes.size b ∧ c.2 ≠ 0 := by
  induction b generalizing o with
  | nil => simp [cellsFrom] at h
  | cons r rest ih =>
    have hs : Bytes.size (r :: rest) = r.count + Bytes.size rest := by simp [Bytes.size]
    rw [cellsFrom, List.mem_append] at h
    rcases h with h | h
    · split at h
      · simp at h
      · next h0 =>
        obtain ⟨i, hi, rfl⟩ := List.mem_map.1 h
        have := List.mem_range.1 hi
        exact ⟨by simp only [hs]; omega, h0⟩
    · have := ih h; exact ⟨by omega, this.2⟩

theorem Memory.wf_ofBytes {size : Nat} {b : Bytes} (h : Bytes.size b ≤ size) : (Memory.ofBytes b).wf size = true := by
  rw [Memory.wf_iff]
  refine ⟨risingFrom_cellsFrom 0 b, fun c hc => ?_⟩
  have := mem_cellsFrom hc
  exact ⟨by omega, by simpa [Memory.ofBytes, Fill.knownToBe] using this.2⟩

theorem Memory.toList_dump (m : Memory) (size : Nat) : Bytes.toList (m.dump size) = (List.range size).map m.read := by
  simp [Memory.dump]

end Machine

end Sys2Proof
end

