-- ==== Sys2Proof/Laws/State.lean ====
section
/-! SUPPORT. One lemma per field per named update of the state, so that no proof unfolds a record update. -/

namespace Sys2Proof.Machine

variable (s : State) (r : Response) (c : Option Condition) (e : Event)

@[simp] theorem State.emit_config : (s.emit r c).config = s.config := rfl
@[simp] theorem State.emit_ram : (s.emit r c).ram = s.ram := rfl
@[simp] theorem State.emit_bios : (s.emit r c).bios = s.bios := rfl
@[simp] theorem State.emit_busUsable : (s.emit r c).busUsable = s.busUsable := rfl
@[simp] theorem State.emit_busFailed : (s.emit r c).busFailed = s.busFailed := rfl
@[simp] theorem State.emit_ttyLineBuffer : (s.emit r c).ttyLineBuffer = s.ttyLineBuffer := rfl
@[simp] theorem State.emit_transferState : (s.emit r c).transferState = s.transferState := rfl
@[simp] theorem State.emit_buttonState : (s.emit r c).buttonState = s.buttonState := rfl
@[simp] theorem State.emit_deltaX : (s.emit r c).deltaX = s.deltaX := rfl
@[simp] theorem State.emit_deltaY : (s.emit r c).deltaY = s.deltaY := rfl
@[simp] theorem State.emit_lastHostPositionX : (s.emit r c).lastHostPositionX = s.lastHostPositionX := rfl
@[simp] theorem State.emit_lastHostPositionY : (s.emit r c).lastHostPositionY = s.lastHostPositionY := rfl
@[simp] theorem State.emit_requests : (s.emit r c).requests = s.requests := rfl
@[simp] theorem State.emit_history : (s.emit r c).history = s.history := rfl
@[simp] theorem State.emit_outputs : (s.emit r c).outputs = s.outputs ++ [⟨r, c⟩] := rfl
@[simp] theorem State.emit_draws : (s.emit r c).draws = s.draws := rfl

@[simp] theorem State.record_config : (s.record e).config = s.config := rfl
@[simp] theorem State.record_ram : (s.record e).ram = s.ram := rfl
@[simp] theorem State.record_bios : (s.record e).bios = s.bios := rfl
@[simp] theorem State.record_busUsable : (s.record e).busUsable = s.busUsable := rfl
@[simp] theorem State.record_busFailed : (s.record e).busFailed = s.busFailed := rfl
@[simp] theorem State.record_ttyLineBuffer : (s.record e).ttyLineBuffer = s.ttyLineBuffer := rfl
@[simp] theorem State.record_transferState : (s.record e).transferState = s.transferState := rfl
@[simp] theorem State.record_buttonState : (s.record e).buttonState = s.buttonState := rfl
@[simp] theorem State.record_deltaX : (s.record e).deltaX = s.deltaX := rfl
@[simp] theorem State.record_deltaY : (s.record e).deltaY = s.deltaY := rfl
@[simp] theorem State.record_lastHostPositionX : (s.record e).lastHostPositionX = s.lastHostPositionX := rfl
@[simp] theorem State.record_lastHostPositionY : (s.record e).lastHostPositionY = s.lastHostPositionY := rfl
@[simp] theorem State.record_requests : (s.record e).requests = s.requests := rfl
@[simp] theorem State.record_history : (s.record e).history = s.history ++ [e] := rfl
@[simp] theorem State.record_outputs : (s.record e).outputs = s.outputs := rfl
@[simp] theorem State.record_draws : (s.record e).draws = s.draws := rfl

@[simp] theorem State.readDone_eq (v : Word) : s.readDone v = s.emit (.read true v) none := rfl
@[simp] theorem State.writeDone_eq : s.writeDone = s.emit (.write true) none := rfl

variable (apply : Bool) (m : BitVec 16) (dx dy : BitVec 8)

@[simp] theorem applyInput_config : (applyInput apply m dx dy s).config = s.config := by cases apply <;> rfl
@[simp] theorem applyInput_ram : (applyInput apply m dx dy s).ram = s.ram := by cases apply <;> rfl
@[simp] theorem applyInput_bios : (applyInput apply m dx dy s).bios = s.bios := by cases apply <;> rfl
@[simp] theorem applyInput_busUsable : (applyInput apply m dx dy s).busUsable = s.busUsable := by cases apply <;> rfl
@[simp] theorem applyInput_busFailed : (applyInput apply m dx dy s).busFailed = s.busFailed := by cases apply <;> rfl
@[simp] theorem applyInput_ttyLineBuffer : (applyInput apply m dx dy s).ttyLineBuffer = s.ttyLineBuffer := by cases apply <;> rfl
@[simp] theorem applyInput_transferState : (applyInput apply m dx dy s).transferState = s.transferState := by cases apply <;> rfl
@[simp] theorem applyInput_lastHostPositionX : (applyInput apply m dx dy s).lastHostPositionX = s.lastHostPositionX := by cases apply <;> rfl
@[simp] theorem applyInput_lastHostPositionY : (applyInput apply m dx dy s).lastHostPositionY = s.lastHostPositionY := by cases apply <;> rfl
@[simp] theorem applyInput_requests : (applyInput apply m dx dy s).requests = s.requests := by cases apply <;> rfl
@[simp] theorem applyInput_history : (applyInput apply m dx dy s).history = s.history := by cases apply <;> rfl
@[simp] theorem applyInput_outputs : (applyInput apply m dx dy s).outputs = s.outputs := by cases apply <;> rfl
@[simp] theorem applyInput_draws : (applyInput apply m dx dy s).draws = s.draws := by cases apply <;> rfl
theorem applyInput_buttonState : (applyInput apply m dx dy s).buttonState = if apply then m else s.buttonState := by cases apply <;> rfl
theorem applyInput_deltaX : (applyInput apply m dx dy s).deltaX = if apply then dx else s.deltaX := by cases apply <;> rfl
theorem applyInput_deltaY : (applyInput apply m dx dy s).deltaY = if apply then dy else s.deltaY := by cases apply <;> rfl

end Sys2Proof.Machine
end

