-- ==== Sys2Proof/Laws/Ops.lean ====
section
/-! SUPPORT. One lemma per shared operation that says once everything it can do, and one that says when it completes; the provers
cite these and unfold none of the operations. -/

namespace Sys2Proof.Machine

variable {s t : State} {k : Effect}

/-! ## The gate -/

theorem whenAlive_alive (h : s.busFailed = false) : whenAlive s k = k := by simp [whenAlive, h]

theorem whenAlive_failed (h : s.busFailed = true) : whenAlive s k = .refused .busFailed := by simp [whenAlive, h]

theorem whenAlive_next (h : whenAlive s k = .next t) : s.busFailed = false ∧ k = .next t := by
  unfold whenAlive at h
  split at h
  · cases h
  · next hf => exact ⟨by simpa using hf, h⟩

theorem whenReady_ready (hu : s.busUsable = true) (hf : s.busFailed = false) : whenReady s k = k := by
  simp [whenReady, whenAlive_alive hf, hu]

theorem whenReady_failed (h : s.busFailed = true) : whenReady s k = .refused .busFailed := by
  simp [whenReady, whenAlive_failed h]

theorem whenReady_unusable (hf : s.busFailed = false) (hu : s.busUsable = false) :
    whenReady s k = .refused .busNotUsable := by simp [whenReady, whenAlive_alive hf, hu]

theorem whenReady_next (h : whenReady s k = .next t) : s.busUsable = true ∧ s.busFailed = false ∧ k = .next t := by
  obtain ⟨hf, h⟩ := whenAlive_next h
  split at h
  · next hu => exact ⟨hu, hf, h⟩
  · cases h

/-! ## Exceptions -/

theorem invalidRead_ready (w : Width) (o : ReadOperands) (hu : s.busUsable = true) (hf : s.busFailed = false) :
    invalidRead w o s = .next ((s.record (.logInvalid .read w o.cpuAddr o.busAddr none)).emit (.read true 0xFFFFFFFF)
      (some .invalidAccess)) := whenReady_ready hu hf

theorem invalidRead_next {w : Width} {o : ReadOperands} (h : invalidRead w o s = .next t) :
    s.busUsable = true ∧ s.busFailed = false ∧
    t = (s.record (.logInvalid .read w o.cpuAddr o.busAddr none)).emit (.read true 0xFFFFFFFF) (some .invalidAccess) := by
  obtain ⟨hu, hf, h⟩ := whenReady_next h
  cases h
  exact ⟨hu, hf, rfl⟩

theorem invalidWrite_ready (w : Width) (o : WriteOperands) (hu : s.busUsable = true) (hf : s.busFailed = false) :
    invalidWrite w o s = .next ((s.record (.logInvalid .write w o.cpuAddr o.busAddr (some o.wdata))).emit (.write true)
      (some .invalidAccess)) := whenReady_ready hu hf

theorem invalidWrite_next {w : Width} {o : WriteOperands} (h : invalidWrite w o s = .next t) :
    s.busUsable = true ∧ s.busFailed = false ∧
    t = (s.record (.logInvalid .write w o.cpuAddr o.busAddr (some o.wdata))).emit (.write true) (some .invalidAccess) := by
  obtain ⟨hu, hf, h⟩ := whenReady_next h
  cases h
  exact ⟨hu, hf, rfl⟩

theorem raiseDmaWidthAssert_ready (d : Direction) (w : Width) (a : Word) (hu : s.busUsable = true)
    (hf : s.busFailed = false) :
    raiseDmaWidthAssert d w a s = .next ({ s with busFailed := true }.emit .nothing (some (.dmaWidthAssert d w a))) :=
  whenReady_ready hu hf

theorem raiseDmaWidthAssert_next {d : Direction} {w : Width} {a : Word} (h : raiseDmaWidthAssert d w a s = .next t) :
    s.busUsable = true ∧ s.busFailed = false ∧
    t = { s with busFailed := true }.emit .nothing (some (.dmaWidthAssert d w a)) := by
  obtain ⟨hu, hf, h⟩ := whenReady_next h
  cases h
  exact ⟨hu, hf, rfl⟩

/-! ## Buffers -/

theorem readBuffer_ready (m : Memory) {size : Nat} {w : Width} {offset : Word} (hu : s.busUsable = true)
    (hf : s.busFailed = false) (hb : offset.toNat + w.bytes ≤ size) :
    readBuffer m size w offset s = .next (s.emit (.read true (BitVec.ofNat 32 (m.loadLE offset.toNat w.bytes))) none) := by
  rw [readBuffer, whenReady_ready hu hf, if_pos hb]; rfl

theorem readBuffer_overrun (m : Memory) {size : Nat} {w : Width} {offset : Word} (hu : s.busUsable = true)
    (hf : s.busFailed = false) (hb : size < offset.toNat + w.bytes) :
    readBuffer m size w offset s = .refused .outOfBounds := by
  rw [readBuffer, whenReady_ready hu hf, if_neg (by omega)]

theorem readBuffer_next {m : Memory} {size : Nat} {w : Width} {offset : Word} (h : readBuffer m size w offset s = .next t) :
    s.busUsable = true ∧ s.busFailed = false ∧ offset.toNat + w.bytes ≤ size ∧
    t = s.emit (.read true (BitVec.ofNat 32 (m.loadLE offset.toNat w.bytes))) none := by
  obtain ⟨hu, hf, h⟩ := whenReady_next h
  split at h
  · next hb => cases h; exact ⟨hu, hf, hb, rfl⟩
  · cases h

theorem ramWrite_ready {w : Width} {o : WriteOperands} (hu : s.busUsable = true) (hf : s.busFailed = false)
    (hb : o.offset.toNat + w.bytes ≤ s.config.ramSize) :
    ramWrite w o s = .next ({ s with ram := s.ram.storeLE o.offset.toNat o.wdata w.bytes }.emit (.write true) none) := by
  rw [ramWrite, whenReady_ready hu hf, if_pos hb]; rfl

theorem ramWrite_overrun {w : Width} {o : WriteOperands} (hu : s.busUsable = true) (hf : s.busFailed = false)
    (hb : s.config.ramSize < o.offset.toNat + w.bytes) : ramWrite w o s = .refused .outOfBounds := by
  rw [ramWrite, whenReady_ready hu hf, if_neg (by omega)]

theorem ramWrite_next {w : Width} {o : WriteOperands} (h : ramWrite w o s = .next t) :
    s.busUsable = true ∧ s.busFailed = false ∧ o.offset.toNat + w.bytes ≤ s.config.ramSize ∧
    t = { s with ram := s.ram.storeLE o.offset.toNat o.wdata w.bytes }.emit (.write true) none := by
  obtain ⟨hu, hf, h⟩ := whenReady_next h
  split at h
  · next hb => cases h; exact ⟨hu, hf, hb, rfl⟩
  · cases h

theorem biosWrite_ignored (w : Width) (o : WriteOperands) (hu : s.busUsable = true) (hf : s.busFailed = false)
    (hp : s.config.biosWritePolicy = .ignore) : biosWrite w o s = .next (s.emit (.write true) none) := by
  rw [biosWrite, whenReady_ready hu hf, hp]; rfl

theorem biosWrite_stored {w : Width} {o : WriteOperands} (hu : s.busUsable = true) (hf : s.busFailed = false)
    (hp : s.config.biosWritePolicy = .store) (hb : o.offset.toNat + w.bytes ≤ s.config.biosSize) :
    biosWrite w o s = .next ({ s with bios := s.bios.storeLE o.offset.toNat o.wdata w.bytes }.emit (.write true) none) := by
  rw [biosWrite, whenReady_ready hu hf, hp]; exact if_pos hb

theorem biosWrite_overrun {w : Width} {o : WriteOperands} (hu : s.busUsable = true) (hf : s.busFailed = false)
    (hp : s.config.biosWritePolicy = .store) (hb : s.config.biosSize < o.offset.toNat + w.bytes) :
    biosWrite w o s = .refused .outOfBounds := by
  rw [biosWrite, whenReady_ready hu hf, hp]; exact if_neg (by omega)

theorem biosWrite_next {w : Width} {o : WriteOperands} (h : biosWrite w o s = .next t) :
    s.busUsable = true ∧ s.busFailed = false ∧
    ((s.config.biosWritePolicy = .ignore ∧ t = s.emit (.write true) none) ∨
     (s.config.biosWritePolicy = .store ∧ o.offset.toNat + w.bytes ≤ s.config.biosSize ∧
      t = { s with bios := s.bios.storeLE o.offset.toNat o.wdata w.bytes }.emit (.write true) none)) := by
  obtain ⟨hu, hf, h⟩ := whenReady_next h
  refine ⟨hu, hf, ?_⟩
  split at h
  · next hp => cases h; exact .inl ⟨hp, rfl⟩
  · next hp =>
    split at h
    · next hb => cases h; exact .inr ⟨hp, hb, rfl⟩
    · cases h

/-! ## Expansion Region 2 -/

theorem statusRead_ready (hu : s.busUsable = true) (hf : s.busFailed = false) :
    statusRead s = .next (s.emit (.read true s.config.exp2StatusValue) none) := whenReady_ready hu hf

theorem statusRead_next (h : statusRead s = .next t) :
    s.busUsable = true ∧ s.busFailed = false ∧ t = s.emit (.read true s.config.exp2StatusValue) none := by
  obtain ⟨hu, hf, h⟩ := whenReady_next h
  cases h
  exact ⟨hu, hf, rfl⟩

theorem postWrite_ready (o : WriteOperands) (hu : s.busUsable = true) (hf : s.busFailed = false) :
    postWrite o s = .next ((s.record (.logPost (postCode o.wdata))).emit (.write true) none) := whenReady_ready hu hf

theorem postWrite_next {o : WriteOperands} (h : postWrite o s = .next t) :
    s.busUsable = true ∧ s.busFailed = false ∧ t = (s.record (.logPost (postCode o.wdata))).emit (.write true) none := by
  obtain ⟨hu, hf, h⟩ := whenReady_next h
  cases h
  exact ⟨hu, hf, rfl⟩

theorem ttyHasRoom_iff (s : State) :
    ttyHasRoom s = true ↔ ∀ cap, s.config.ttyBufCap = some cap → s.ttyLineBuffer.length < cap := by
  unfold ttyHasRoom
  split <;> simp_all

/-- Everything a line feed can do. -/
theorem ttyFlush_cases (s : State) :
    ((s.ttyLineBuffer ≠ [] ∨ s.config.ttyFlushEmpty = true) ∧
      ttyFlush s = { s.record (.logTty s.ttyLineBuffer) with ttyLineBuffer := [] }) ∨
    (s.ttyLineBuffer = [] ∧ s.config.ttyFlushEmpty = false ∧ ttyFlush s = s) := by
  unfold ttyFlush
  split
  · next h => exact .inl ⟨h.imp_left (by intro h; exact List.length_pos_iff.1 h), rfl⟩
  · next h =>
    simp only [not_or, Nat.pos_iff_ne_zero, ne_eq, List.length_eq_zero_iff, not_not, Bool.not_eq_true] at h
    exact .inr ⟨h.1, h.2, by obtain ⟨h1, -⟩ := h; cases s; simp_all⟩

/-- Everything a TTY write can do. -/
theorem ttyWrite_next {o : WriteOperands} (h : ttyWrite o s = .next t) :
    s.busUsable = true ∧ s.busFailed = false ∧
    ((ttyChar o.wdata = ttyCr ∧ t = s.emit (.write true) none) ∨
     (ttyChar o.wdata = ttyLf ∧ t = (ttyFlush s).emit (.write true) none) ∨
     (ttyChar o.wdata ≠ ttyCr ∧ ttyChar o.wdata ≠ ttyLf ∧ ttyHasRoom s = true ∧
      t = { s with ttyLineBuffer := s.ttyLineBuffer ++ [ttyChar o.wdata] }.emit (.write true) none)) := by
  obtain ⟨hu, hf, h⟩ := whenReady_next h
  refine ⟨hu, hf, ?_⟩
  split at h
  · next h1 => cases h; exact .inl ⟨h1, rfl⟩
  · next h1 =>
    split at h
    · next h2 => cases h; exact .inr (.inl ⟨h2, rfl⟩)
    · next h2 =>
      split at h
      · next h3 => cases h; exact .inr (.inr ⟨h1, h2, h3, rfl⟩)
      · cases h

theorem ttyWrite_cr {o : WriteOperands} (hu : s.busUsable = true) (hf : s.busFailed = false) (h : ttyChar o.wdata = ttyCr) :
    ttyWrite o s = .next (s.emit (.write true) none) := by
  rw [ttyWrite, whenReady_ready hu hf, if_pos h]; rfl

theorem ttyWrite_lf {o : WriteOperands} (hu : s.busUsable = true) (hf : s.busFailed = false) (h : ttyChar o.wdata = ttyLf) :
    ttyWrite o s = .next ((ttyFlush s).emit (.write true) none) := by
  rw [ttyWrite, whenReady_ready hu hf, if_neg (by rw [h]; decide), if_pos h]; rfl

theorem ttyWrite_append {o : WriteOperands} (hu : s.busUsable = true) (hf : s.busFailed = false)
    (hc : ttyChar o.wdata ≠ ttyCr) (hl : ttyChar o.wdata ≠ ttyLf) (hr : ttyHasRoom s = true) :
    ttyWrite o s = .next ({ s with ttyLineBuffer := s.ttyLineBuffer ++ [ttyChar o.wdata] }.emit (.write true) none) := by
  rw [ttyWrite, whenReady_ready hu hf, if_neg hc, if_neg hl, if_pos hr]; rfl

theorem ttyWrite_full {o : WriteOperands} (hu : s.busUsable = true) (hf : s.busFailed = false)
    (hc : ttyChar o.wdata ≠ ttyCr) (hl : ttyChar o.wdata ≠ ttyLf) (hr : ttyHasRoom s = false) :
    ttyWrite o s = .refused .ttyBufferFull := by
  rw [ttyWrite, whenReady_ready hu hf, if_neg hc, if_neg hl, if_neg (by simp [hr])]

/-! ## Sound processor and DMA -/

theorem spuRead_ready (hu : s.busUsable = true) (hf : s.busFailed = false) :
    spuRead s = .next (s.emit (.read true 0) none) := whenReady_ready hu hf

theorem spuRead_next (h : spuRead s = .next t) :
    s.busUsable = true ∧ s.busFailed = false ∧ t = s.emit (.read true 0) none := by
  obtain ⟨hu, hf, h⟩ := whenReady_next h
  cases h
  exact ⟨hu, hf, rfl⟩

theorem spuWrite_ready (hu : s.busUsable = true) (hf : s.busFailed = false) :
    spuWrite s = .next (s.emit (.write true) none) := whenReady_ready hu hf

theorem spuWrite_next (h : spuWrite s = .next t) :
    s.busUsable = true ∧ s.busFailed = false ∧ t = s.emit (.write true) none := by
  obtain ⟨hu, hf, h⟩ := whenReady_next h
  cases h
  exact ⟨hu, hf, rfl⟩

theorem execRdDmaW_next {o : ReadOperands} {answer : Word} (h : execRdDmaW o answer s = .next t) :
    s.busUsable = true ∧ s.busFailed = false ∧ t = (s.record (.dmaRegRead o.offset)).emit (.read true answer) none := by
  obtain ⟨hu, hf, h⟩ := whenReady_next h
  cases h
  exact ⟨hu, hf, rfl⟩

theorem execWrDmaW_next {o : WriteOperands} (h : execWrDmaW o s = .next t) :
    s.busUsable = true ∧ s.busFailed = false ∧ t = (s.record (.dmaRegWrite o.offset o.wdata)).emit (.write true) none := by
  obtain ⟨hu, hf, h⟩ := whenReady_next h
  cases h
  exact ⟨hu, hf, rfl⟩

/-! ## Load, save and restore -/

/-- Everything `LOADBIOS` can do. -/
theorem execLoadbios_next {file : FileAnswer} (h : execLoadbios file s = .next t) :
    s.busFailed = false ∧
    ((∃ content, file = .bytes content ∧ Bytes.size content = s.config.biosSize ∧ t = loadSuccess content s) ∨
     ((∀ content, file = .bytes content → Bytes.size content ≠ s.config.biosSize) ∧ t = loadFailure s)) := by
  obtain ⟨hf, h⟩ := whenAlive_next h
  refine ⟨hf, ?_⟩
  cases file with
  | absent => cases h; exact .inr ⟨by simp, rfl⟩
  | shortRead n => cases h; exact .inr ⟨by simp, rfl⟩
  | bytes content =>
    dsimp only at h
    by_cases hs : Bytes.size content = s.config.biosSize
    · rw [if_pos hs] at h; cases h; exact .inl ⟨content, rfl, hs, rfl⟩
    · rw [if_neg hs] at h; cases h; exact .inr ⟨by simpa using hs, rfl⟩

theorem execBsave_next (h : execBsave s = .next t) :
    s.busUsable = true ∧ s.busFailed = false ∧ t = s.emit (.saved (busSnapshot s)) none := by
  obtain ⟨hu, hf, h⟩ := whenReady_next h
  cases h
  exact ⟨hu, hf, rfl⟩

/-- Everything `BLOAD` can do. -/
theorem execBload_next {stream : Bytes} (h : execBload stream s = .next t) :
    s.busFailed = false ∧ ∃ n tty, s.config.ramSize + s.config.biosSize + 4 + n ≤ Bytes.size stream ∧
    t = { s with
      ram := Memory.ofBytes (splitSnapshot s.config stream).1
      bios := Memory.ofBytes (splitSnapshot s.config stream).2.1
      ttyLineBuffer := tty
      busUsable := true }.emit (.restored (s.config.ramSize + s.config.biosSize + 4 + n)) none := by
  obtain ⟨hf, h⟩ := whenAlive_next h
  refine ⟨hf, ?_⟩
  dsimp only at h
  split at h
  · next hl => cases h; exact ⟨_, _, hl, rfl⟩
  · cases h

/-- Everything `PLOAD` can do. -/
theorem execPload_next {apply : Bool} {stream : Bytes} (h : execPload apply stream s = .next t) :
    ∃ low high dx dy code ts, Bytes.toList (Bytes.take 5 stream) = [low, high, dx, dy, code] ∧
    TransferState.ofCode code.toNat = some ts ∧
    t = { applyInput apply (high ++ low) dx dy s with transferState := ts }.emit (.restored 5) none := by
  unfold execPload at h
  split at h
  · next low high dx dy code he =>
    split at h
    · next ts hts => cases h; exact ⟨low, high, dx, dy, code, ts, he, hts, rfl⟩
    · cases h
  · cases h

/-! ## Block PERIPH -/

theorem finishTransfer_next {ack : Bool} {out : Byte} {n : TransferState} (h : finishTransfer ack out n s = .next t) :
    t = { s with transferState := n }.emit (.transfer ack out) none := by cases h; rfl

/-- Everything a button update can do. -/
theorem updateButton_next {identity : Nat} {pressed : Bool} (h : updateButton identity pressed s = .next t) :
    ∃ bit, s.config.buttonBit[identity]? = some bit ∧
      t = { s with buttonState := setButtonBit s.buttonState bit pressed }.emit .nothing none := by
  unfold updateButton at h
  split at h
  · next bit hb => cases h; exact ⟨bit, hb, rfl⟩
  · cases h

/-- Everything `SETBTNC` can do. -/
theorem execSetbtnc_next {code : Byte} {pressed : Bool} (h : execSetbtnc code pressed s = .next t) :
    (s.config.buttonCount ≤ code.toNat ∧ t = s.emit .nothing none) ∨
    ∃ identity bit, code.toNat < s.config.buttonCount ∧ s.config.buttonCode[code.toNat]? = some identity ∧
      s.config.buttonBit[identity]? = some bit ∧
      t = { s with buttonState := setButtonBit s.buttonState bit pressed }.emit .nothing none := by
  unfold execSetbtnc at h
  split at h
  · next hc =>
    split at h
    · next identity hi =>
      obtain ⟨bit, hb, rfl⟩ := updateButton_next h
      exact .inr ⟨identity, bit, hc, hi, hb, rfl⟩
    · cases h
  · cases h; exact .inl ⟨by omega, rfl⟩

/-- The bits of the mask after a button update (47 R232). -/
theorem getLsbD_setButtonBit (mask : BitVec 16) (bit : Nat) (pressed : Bool) (k : Nat) (hk : k < 16) :
    (setButtonBit mask bit pressed).getLsbD k = if k = bit then !pressed else mask.getLsbD k := by
  unfold setButtonBit
  have one : ((1 : BitVec 16) <<< bit).getLsbD k = decide (k = bit) := by
    rw [BitVec.getLsbD_shiftLeft]
    rcases Nat.lt_trichotomy k bit with h | h | h
    · simp [hk, h, Nat.ne_of_lt h]
    · subst h; simp [hk]
    · have : k - bit ≠ 0 := by omega
      simp [hk, Nat.not_lt.2 (Nat.le_of_lt h), Nat.ne_of_gt h, this]
  generalize (1 : BitVec 16) <<< bit = m at one ⊢
  cases pressed
  · rw [if_neg (by decide), BitVec.getLsbD_or, one]
    by_cases h : k = bit <;> simp [h]
  · rw [if_pos rfl, BitVec.getLsbD_and, BitVec.getLsbD_not, one]
    by_cases h : k = bit <;> simp [h, hk]

end Sys2Proof.Machine
end

