-- ==== Sys2Proof/Laws/Step.lean ====
section
/-! SUPPORT. Everything a step can do, said once: `step_cases` peels the queue, the gate and the decoder off a step, `exec_cases`
lists the next states of the instructions. Then the facts the invariant needs. -/

namespace Sys2Proof.Machine

variable {s t : State}

/-- Everything a step that answers a next state did before it ran an instruction. -/
theorem step_cases (h : step s = .next t) :
    (s.requests = [] ∧ t = s) ∨
    ∃ r rest i, s.requests = r :: rest ∧ s.config.wf = true ∧ decode s.config s.transferState r = .ok i ∧
      (r.isTransaction = true → s.busUsable = true ∧ s.busFailed = false) ∧ exec i { s with requests := rest } = .next t := by
  unfold step at h
  split at h
  · next h0 => cases h; exact .inl ⟨h0, rfl⟩
  · next r rest hr =>
    refine .inr ?_
    have run : ∀ k, runDecoded exec k { s with requests := rest } = .next t → ∃ i, k = .ok i ∧
        exec i { s with requests := rest } = .next t := by
      intro k hk
      cases k with
      | error e => cases hk
      | ok i => exact ⟨i, rfl, hk⟩
    unfold runRequest gateRequest at h
    split at h
    · next hw =>
      split at h
      · obtain ⟨hu, hf, h⟩ := whenReady_next h
        obtain ⟨i, hd, he⟩ := run _ h
        exact ⟨r, rest, i, hr, hw, hd, fun _ => ⟨hu, hf⟩, he⟩
      · next hx =>
        obtain ⟨i, hd, he⟩ := run _ h
        exact ⟨r, rest, i, hr, hw, hd, fun h => absurd h hx, he⟩
    · cases h

/-- The next states of an instruction that adds a result, and at most an event, and changes nothing else. -/
def Reports (s t : State) : Prop := ∃ r c, t = s.emit r c ∨ ∃ e, t = (s.record e).emit r c

/-- Every next state of every instruction, by what it changes. -/
theorem exec_cases {i : Instr} (h : exec i s = .next t) :
    Reports s t ∨
    (∃ d w a, w ≠ .word ∧ t = { s with busFailed := true }.emit .nothing (some (.dmaWidthAssert d w a))) ∨
    (∃ o v, ∃ w : Width, o + w.bytes ≤ s.config.ramSize ∧
      t = { s with ram := s.ram.storeLE o v w.bytes }.emit (.write true) none) ∨
    (∃ o v, ∃ w : Width, s.config.biosWritePolicy = .store ∧ o + w.bytes ≤ s.config.biosSize ∧
      t = { s with bios := s.bios.storeLE o v w.bytes }.emit (.write true) none) ∨
    (∃ b, t = { s with ttyLineBuffer := s.ttyLineBuffer ++ [b] }.emit (.write true) none) ∨
    t = { s.record (.logTty s.ttyLineBuffer) with ttyLineBuffer := [] }.emit (.write true) none ∨
    (∃ ack out n row, i.transferRow = some row ∧ (n = row.successor ∨ n = .idle) ∧ (ack = false ↔ n = .idle) ∧
      t = { s with transferState := n }.emit (.transfer ack out) none) ∨
    (∃ input p, i = .xferDeltax input p ∧
      t = { sampleMotion p s with transferState := .deltaY }.emit (.transfer true (sampleMotion p s).deltaX) none) ∨
    (i = .preset ∧ t = { s with transferState := .idle }.emit .nothing none) ∨
    (∃ m, t = { s with buttonState := m }.emit .nothing none) ∨
    (∃ apply stream m dx dy n, i = .pload apply stream ∧
      t = { applyInput apply m dx dy s with transferState := n }.emit (.restored 5) none) ∨
    (∃ content, i = .loadbios (.bytes content) ∧ Bytes.size content = s.config.biosSize ∧ t = loadSuccess content s) ∨
    (∃ file, i = .loadbios file ∧ t = loadFailure s) ∨
    (∃ stream n tty, i = .bload stream ∧ s.config.ramSize + s.config.biosSize + 4 ≤ n ∧ t = { s with
      ram := Memory.ofBytes (splitSnapshot s.config stream).1
      bios := Memory.ofBytes (splitSnapshot s.config stream).2.1
      ttyLineBuffer := tty
      busUsable := true }.emit (.restored n) none) := by
  cases i
  case loadbios f =>
    obtain ⟨-, ⟨c, rfl, hs, rfl⟩ | ⟨-, rfl⟩⟩ := execLoadbios_next h
    · iterate 11 apply Or.inr
      exact .inl ⟨c, rfl, hs, rfl⟩
    · iterate 12 apply Or.inr
      exact .inl ⟨f, rfl, rfl⟩
  case bload b =>
    obtain ⟨-, n, tty, -, rfl⟩ := execBload_next h
    iterate 13 apply Or.inr
    exact ⟨b, _, tty, rfl, by omega, rfl⟩
  case pload a b =>
    obtain ⟨low, high, dx, dy, _, n, -, -, rfl⟩ := execPload_next h
    iterate 10 apply Or.inr
    exact .inl ⟨a, b, high ++ low, dx, dy, n, rfl, rfl⟩
  case setbtn a b =>
    obtain ⟨_, -, rfl⟩ := updateButton_next h
    iterate 9 apply Or.inr
    exact .inl ⟨_, rfl⟩
  case setbtnc a b =>
    obtain ⟨-, rfl⟩ | ⟨_, _, -, -, -, rfl⟩ := execSetbtnc_next h
    · exact .inl ⟨_, _, .inl rfl⟩
    · iterate 9 apply Or.inr
      exact .inl ⟨_, rfl⟩
  case preset =>
    cases h
    iterate 8 apply Or.inr
    exact .inl ⟨rfl, rfl⟩
  case xferDeltax a p =>
    obtain rfl := finishTransfer_next h
    iterate 7 apply Or.inr
    exact .inl ⟨a, p, rfl, rfl⟩
  case bsave => obtain ⟨-, -, rfl⟩ := execBsave_next h; exact .inl ⟨_, _, .inl rfl⟩
  case rdDmaW o a => obtain ⟨-, -, rfl⟩ := execRdDmaW_next h; exact .inl ⟨_, _, .inr ⟨_, rfl⟩⟩
  case wrDmaW o => obtain ⟨-, -, rfl⟩ := execWrDmaW_next h; exact .inl ⟨_, _, .inr ⟨_, rfl⟩⟩
  case psave => cases h; exact .inl ⟨_, _, .inl rfl⟩
  case gettype => cases h; exact .inl ⟨_, _, .inl rfl⟩
  case getvmc => cases h; exact .inl ⟨_, _, .inl rfl⟩
  all_goals first
    | (obtain ⟨-, -, -, rfl⟩ := readBuffer_next h; exact .inl ⟨_, _, .inl rfl⟩)
    | (obtain ⟨-, -, rfl⟩ := statusRead_next h; exact .inl ⟨_, _, .inl rfl⟩)
    | (obtain ⟨-, -, rfl⟩ := spuRead_next h; exact .inl ⟨_, _, .inl rfl⟩)
    | (obtain ⟨-, -, rfl⟩ := spuWrite_next h; exact .inl ⟨_, _, .inl rfl⟩)
    | (obtain ⟨-, -, rfl⟩ := postWrite_next h; exact .inl ⟨_, _, .inr ⟨_, rfl⟩⟩)
    | (obtain ⟨-, -, rfl⟩ := invalidRead_next h; exact .inl ⟨_, _, .inr ⟨_, rfl⟩⟩)
    | (obtain ⟨-, -, rfl⟩ := invalidWrite_next h; exact .inl ⟨_, _, .inr ⟨_, rfl⟩⟩)
    | (obtain ⟨-, -, rfl⟩ := raiseDmaWidthAssert_next h; exact .inr (.inl ⟨_, _, _, by decide, rfl⟩))
    | (obtain ⟨-, -, hb, rfl⟩ := ramWrite_next h; exact .inr (.inr (.inl ⟨_, _, _, hb, rfl⟩)))
    | (obtain ⟨-, -, ⟨-, rfl⟩ | ⟨hp, hb, rfl⟩⟩ := biosWrite_next h
       · exact .inl ⟨_, _, .inl rfl⟩
       · exact .inr (.inr (.inr (.inl ⟨_, _, _, hp, hb, rfl⟩))))
    | (obtain ⟨-, -, ⟨-, rfl⟩ | ⟨-, rfl⟩ | ⟨-, -, -, rfl⟩⟩ := ttyWrite_next h
       · exact .inl ⟨_, _, .inl rfl⟩
       · rcases ttyFlush_cases s with ⟨-, e⟩ | ⟨-, -, e⟩ <;> rw [e]
         · iterate 5 apply Or.inr
           exact .inl rfl
         · exact .inl ⟨_, _, .inl rfl⟩
       · iterate 4 apply Or.inr
         exact .inl ⟨_, rfl⟩)
    | (obtain rfl := finishTransfer_next h
       iterate 6 apply Or.inr
       exact .inl ⟨_, _, _, _, rfl, by decide, by decide, rfl⟩)

/-! ## Facts the invariant needs -/

/-- A coordinate after reduction fits (log 6). -/
theorem coordinateFits_toCoordinate {c : Config} (h : 1 ≤ c.posBits) (x : Int) :
    c.coordinateFits (c.toCoordinate x) = true := by
  obtain ⟨p, hp⟩ : ∃ p, c.posBits = p + 1 := ⟨c.posBits - 1, by omega⟩
  have h2 : (2 : Nat) ^ (p + 1) = 2 * 2 ^ p := by ring
  have hpos : 0 < 2 ^ (p + 1) := by positivity
  have h3 := @Int.bmod_lt x (2 ^ (p + 1)) hpos
  have h4 := @Int.le_bmod x (2 ^ (p + 1)) hpos
  simp only [Config.coordinateFits, Config.toCoordinate, hp, Bool.and_eq_true, decide_eq_true_eq]
  rw [h2] at *
  push_cast at *
  constructor <;> omega

/-- A coordinate that fits is left alone. -/
theorem toCoordinate_of_fits {c : Config} (h : 1 ≤ c.posBits) {x : Int} (hx : c.coordinateFits x = true) :
    c.toCoordinate x = x := by
  obtain ⟨p, hp⟩ : ∃ p, c.posBits = p + 1 := ⟨c.posBits - 1, by omega⟩
  have h2 : (2 : Nat) ^ (p + 1) = 2 * 2 ^ p := by ring
  simp only [Config.coordinateFits, hp, Nat.add_sub_cancel, Bool.and_eq_true, decide_eq_true_eq] at hx
  rw [Config.toCoordinate, hp]
  apply Int.bmod_eq_of_le <;> rw [h2] <;> push_cast <;> omega

theorem posBits_pos {c : Config} (h : c.wf = true) : 1 ≤ c.posBits := by
  simp only [Config.wf, Bool.and_eq_true, decide_eq_true_eq] at h
  exact h.2

/-- 00 R8.7, the first half. -/
theorem patch_inside {c : Config} (h : c.wf = true) : ∀ p ∈ c.biosPatches, p.1 + 4 ≤ c.biosSize := by
  simp only [Config.wf, Config.patchesWf, Bool.and_eq_true, List.all_eq_true, decide_eq_true_eq] at h
  exact h.1.1.2.1.2

/-- The next `n` bytes are at most `n`. -/
theorem size_take_le (n : Nat) (b : Bytes) : Bytes.size (Bytes.take n b) ≤ n := by
  rw [Bytes.size_eq_length, Bytes.toList_take]; simp

/-- Patches inside the image keep the canonical form and the fill (45 R193). -/
theorem applyPatches_wf {size : Nat} (ps : List (Nat × Word)) {m : Memory} (hm : m.wf size = true)
    (h : ∀ p ∈ ps, p.1 + 4 ≤ size) :
    (applyPatches ps m).wf size = true ∧ (applyPatches ps m).fill = m.fill := by
  induction ps generalizing m with
  | nil => exact ⟨hm, rfl⟩
  | cons p ps ih =>
    have := ih (Memory.wf_storeLE hm (h p (by simp)) p.2) fun q hq => h q (by simp [hq])
    simpa [applyPatches] using this

theorem reset_ram_wf : State.reset.ram.wf State.reset.config.ramSize = true := Memory.wf_empty _ _

theorem reset_bios_wf : State.reset.bios.wf State.reset.config.biosSize = true := Memory.wf_empty _ _

end Sys2Proof.Machine
end

