-- ==== Sys2Proof/Tests/Slice0.lean ====
section
/-! SUPPORT. The model's own tests. Every expected value is written out from the spec's tables (95) or from the rule the test's
comment names; none is the model's own answer. The last part gives, for every statement with hypotheses, a state and operands that
meet them. -/

namespace Sys2Proof.Tests

open Sys2Proof Sys2Proof.Machine Sys2Proof.Statements

/-! ## Small machines -/

/-- Parameters small enough to evaluate: 8 bytes of RAM in four mirrors, 16 bytes of BIOS, 12-bit coordinates. -/
def small : Config := { Config.default with
  ram := ⟨0x100, 0x20, 7⟩
  ramSize := 8
  bios := ⟨0x1000, 16, 15⟩
  biosSize := 16
  exp2 := ⟨0x200, 0x60, 0x7F⟩
  spu := ⟨0x2000, 0x1B0, 0x1FF⟩
  dma := ⟨0x3000, 8, 7⟩
  biosPatches := [(1, 0xAABBCCDD), (8, 0x11223344)]
  posBits := 12 }

/-- A usable bus with known contents: RAM `44 33 22 11` from offset 0, BIOS zero; the pointer was at (100, 100). -/
def start : State := { State.construct small ⟨100, 100⟩ with
  ram := ⟨.zero, [(0, 0x44), (1, 0x33), (2, 0x22), (3, 0x11)]⟩
  bios := ⟨.zero, []⟩
  busUsable := true }

/-- The next state of an outcome. -/
def nextState (r : Effect) : Option State :=
  match r with
  | .next t => some t
  | _ => none

/-- The reason of a refusal. -/
def refusal (r : Effect) : Option Refusal :=
  match r with
  | .refused e => some e
  | _ => none

/-- What an outcome returned last. -/
def lastResult (r : Effect) : Option Result :=
  match r with
  | .next t => t.outputs.getLast?
  | _ => none

/-- The last event of an outcome's history. -/
def lastEvent (r : Effect) : Option Event :=
  match r with
  | .next t => t.history.getLast?
  | _ => none

/-- A field of an outcome's next state. -/
def field {α : Type} (f : State → α) (r : Effect) : Option α :=
  match r with
  | .next t => some (f t)
  | _ => none

/-- Read operands at an offset, both addresses alike. -/
def rd (offset addr : Word) : ReadOperands := ⟨offset, addr, addr⟩

/-- Write operands at an offset, both addresses alike. -/
def wr (offset addr v : Word) : WriteOperands := ⟨offset, addr, addr, v⟩

/-! ## Configurations (00 R8) -/

theorem test_default_config_wf : Config.default.wf = true := by decide
theorem test_small_config_wf : small.wf = true := by decide
theorem test_ram_size_not_power : ({ small with ramSize := 12 } : Config).wf = false := by decide
theorem test_base_not_aligned : ({ small with ram := ⟨0x104, 0x20, 7⟩ } : Config).wf = false := by decide
theorem test_windows_overlap : ({ small with exp2 := ⟨0x100, 0x60, 0x7F⟩ } : Config).wf = false := by decide
theorem test_exp2_window_short : ({ small with exp2 := ⟨0x200, 0x41, 0x7F⟩ } : Config).wf = false := by decide
theorem test_patch_past_the_end : ({ small with biosPatches := [(1, 0), (13, 0)] } : Config).wf = false := by decide
theorem test_patches_overlap : ({ small with biosPatches := [(1, 0), (4, 0)] } : Config).wf = false := by decide
theorem test_three_patches : ({ small with biosPatches := [(0, 0), (4, 0), (8, 0)] } : Config).wf = false := by decide
theorem test_button_bits_equal : ({ small with buttonBit := [11, 11] } : Config).wf = false := by decide
theorem test_button_bit_16 : ({ small with buttonBit := [16, 1] } : Config).wf = false := by decide

/-! ## WellFormed: one well-formed term and, for each check, an ill-formed one -/

theorem test_wf_ram_mirror : WellFormed Config.default (.rdRamW (rd 0x1FFFFC 0x007FFFFC)) = true := by decide
theorem test_wf_refuses_unmasked_offset : WellFormed Config.default (.rdRamB (rd 0x200000 0x00200000)) = false := by decide
theorem test_wf_refuses_address_outside_window : WellFormed Config.default (.rdRamB (rd 0 0x00800000)) = false := by decide
theorem test_wf_refuses_mapped_address_as_invalid : WellFormed Config.default (.rdInvB (rd 0x10 0x10)) = false := by decide
theorem test_wf_refuses_status_row_elsewhere :
    WellFormed Config.default (.rdExp2StatusB (rd 0x22 0x1F802022)) = false := by decide
theorem test_wf_refuses_tty_row_elsewhere :
    WellFormed Config.default (.wrExp2TtyB (wr 0x24 0x1F802024 0)) = false := by decide
theorem test_wf_refuses_post_row_elsewhere :
    WellFormed Config.default (.wrExp2PostB (wr 0x40 0x1F802040 0)) = false := by decide
theorem test_wf_refuses_exp2_fallback_on_handled_offsets :
    WellFormed Config.default (.rdExp2InvB (rd 0x21 0x1F802021)) = false ∧
    WellFormed Config.default (.wrExp2InvB (wr 0x23 0x1F802023 0)) = false ∧
    WellFormed Config.default (.wrExp2InvB (wr 0x41 0x1F802041 0)) = false := by decide
theorem test_wf_refuses_spu_rows_elsewhere :
    WellFormed Config.default (.rdSpuStatH (rd 0x1AC 0x1F801DAC)) = false ∧
    WellFormed Config.default (.rdSpuH (rd 0x1AE 0x1F801DAE)) = false ∧
    WellFormed Config.default (.wrSpuFifoH (wr 0x1AA 0x1F801DAA 0)) = false ∧
    WellFormed Config.default (.wrSpuCtrlH (wr 0x1A8 0x1F801DA8 0)) = false ∧
    WellFormed Config.default (.wrSpuH (wr 0x1A8 0x1F801DA8 0)) = false := by decide
theorem test_wf_refuses_row_input :
    WellFormed Config.default (.xferIdleOther 0x01) = false ∧ WellFormed Config.default (.xferReadyOther 0x42) = false := by
  decide
theorem test_wf_refuses_wide_pointer :
    WellFormed small (.xferDeltax 0 ⟨2047, -2048⟩) = true ∧ WellFormed small (.xferDeltax 0 ⟨2048, 0⟩) = false ∧
    WellFormed small (.xferDeltax 0 ⟨0, -2049⟩) = false := by decide
theorem test_wf_refuses_missing_button :
    WellFormed Config.default (.setbtn 1 true) = true ∧ WellFormed Config.default (.setbtn 2 true) = false := by decide

/-! ## Decoding: words of 95 section 2.1, and one of every other family -/

/-- A transaction word at `cpu_addr = bus_addr`, decoded under the defaults. -/
def txn (word : BitVec 72) : Option Instr := decoded (decode Config.default .idle (.txn word (word.extractLsb' 32 32) 0))

theorem test_decode_ram : txn 0x00001FFFFF00000000 = some (.rdRamB (rd 0x1FFFFF 0x001FFFFF)) ∧
    txn 0x000020000000000000 = some (.rdRamB (rd 0x0 0x00200000)) ∧
    txn 0x120000010011223344 = some (.wrRamW (wr 0x100 0x00000100 0x11223344)) := by decide
theorem test_decode_bios : txn 0x021FC0000000000000 = some (.rdBiosW (rd 0x0 0x1FC00000)) ∧
    txn 0x101FC06F0C000000EE = some (.wrBiosB (wr 0x6F0C 0x1FC06F0C 0xEE)) ∧
    txn 0x021FC8000000000000 = some (.rdInvW (rd 0x1FC80000 0x1FC80000)) := by decide
theorem test_decode_exp2 : txn 0x001F80202100000000 = some (.rdExp2StatusB (rd 0x21 0x1F802021)) ∧
    txn 0x101F8020410000000F = some (.wrExp2PostB (wr 0x41 0x1F802041 0xF)) ∧
    txn 0x001F80200000000000 = some (.rdExp2InvB (rd 0x0 0x1F802000)) ∧
    txn 0x001F80400000000000 = some (.rdInvB (rd 0x1F804000 0x1F804000)) := by decide
theorem test_decode_spu : txn 0x011F801DAE00000000 = some (.rdSpuStatH (rd 0x1AE 0x1F801DAE)) ∧
    txn 0x001F801EFF00000000 = some (.rdSpuB (rd 0x2FF 0x1F801EFF)) ∧
    txn 0x111F801DA800001234 = some (.wrSpuFifoH (wr 0x1A8 0x1F801DA8 0x1234)) ∧
    txn 0x121F801C00FFFFFFFF = some (.wrSpuW (wr 0x0 0x1F801C00 0xFFFFFFFF)) := by decide
theorem test_decode_dma : txn 0x021F8010FC00000000 = some (.rdDmaW (rd 0x7C 0x1F8010FC) 0) ∧
    txn 0x121F8010F007654321 = some (.wrDmaW (wr 0x70 0x1F8010F0 0x07654321)) ∧
    txn 0x111F8010F400000001 = some (.wrDmaH (wr 0x74 0x1F8010F4 0x1)) := by decide
theorem test_decode_invalid : txn 0x000080000000000000 = some (.rdInvB (rd 0x800000 0x800000)) ∧
    txn 0x02BFC0000000000000 = some (.rdInvW (rd 0xBFC00000 0xBFC00000)) ∧
    txn 0x120080000012345678 = some (.wrInvW (wr 0x800000 0x800000 0x12345678)) := by decide
theorem test_decode_refused_transactions :
    decode Config.default .idle (.txn 0x030000010000000000 0 0) = .error .reservedWidth ∧
    decode Config.default .idle (.txn 0x200000010000000000 0 0) = .error .reservedDirection ∧
    decode Config.default .idle (.txn 0x020000010000000001 0 0) = .error .readWithData := by decide

/-- A command word, decoded while the engine is in a state. -/
def pcmd (t : TransferState) (word : BitVec 16) : Option Instr :=
  decoded (decode Config.default t (.pcmd word [⟨5, 0⟩] ⟨3, 4⟩))

theorem test_decode_transfers : pcmd .idle 0x0001 = some .xferIdleSel ∧ pcmd .idle 0x0042 = some (.xferIdleOther 0x42) ∧
    pcmd .ready 0x0042 = some .xferReadyPoll ∧ pcmd .ready 0x0001 = some (.xferReadyOther 0x01) ∧
    pcmd .idMsb 0x0001 = some (.xferIdmsb 0x01) ∧ pcmd .buttonsLsb 0x00AB = some (.xferBtnlsb 0xAB) ∧
    pcmd .buttonsMsb 0x0000 = some (.xferBtnmsb 0x00) ∧ pcmd .deltaX 0x0000 = some (.xferDeltax 0x00 ⟨3, 4⟩) ∧
    pcmd .deltaY 0x0042 = some (.xferDeltay 0x42) := by decide
theorem test_decode_commands : pcmd .idle 0x1000 = some .preset ∧ pcmd .idle 0x2101 = some (.setbtn 1 true) ∧
    pcmd .idle 0x2000 = some (.setbtn 0 false) ∧ pcmd .idle 0x30FF = some (.setbtnc 255 false) ∧
    pcmd .idle 0x4000 = some .psave ∧ pcmd .idle 0x5001 = some (.pload true [⟨5, 0⟩]) ∧ pcmd .idle 0x6000 = some .gettype ∧
    pcmd .idle 0x7000 = some .getvmc := by decide
theorem test_decode_refused_commands : pcmd .idle 0x2102 = none ∧ pcmd .idle 0x8000 = none ∧ pcmd .idle 0xFFFF = none ∧
    pcmd .idle 0x1001 = none ∧ pcmd .idle 0x6001 = none ∧ pcmd .idle 0x0100 = none := by decide
theorem test_decode_host_commands : decode Config.default .idle (.hcmd 0x00 .absent []) = .ok (.loadbios .absent) ∧
    decode Config.default .idle (.hcmd 0x10 .absent []) = .ok .bsave ∧
    decode Config.default .idle (.hcmd 0x20 .absent [⟨3, 1⟩]) = .ok (.bload [⟨3, 1⟩]) ∧
    decode Config.default .idle (.hcmd 0x30 .absent []) = .error .reservedCommand ∧
    decode Config.default .idle (.hcmd 0x01 .absent []) = .error .nonzeroUnusedBits := by decide

/-- 30 R95: the match word of every row decodes to the row's operation. -/
theorem test_every_table_row_decodes :
    (opcodeTable.all fun r => (decodeTableWord r.format.bits r.pattern).map Instr.mnemonic == some r.mnemonic) = true := by
  decide

/-! ## RAM and BIOS (95 section 2.2, 2.3; 40 R110 to R116) -/

theorem test_ram_reads : lastResult (exec (.rdRamB (rd 0 0x100)) start) = some ⟨.read true 0x44, none⟩ ∧
    lastResult (exec (.rdRamB (rd 3 0x103)) start) = some ⟨.read true 0x11, none⟩ ∧
    lastResult (exec (.rdRamH (rd 2 0x10A)) start) = some ⟨.read true 0x1122, none⟩ ∧
    lastResult (exec (.rdRamH (rd 1 0x101)) start) = some ⟨.read true 0x2233, none⟩ ∧
    lastResult (exec (.rdRamW (rd 0 0x100)) start) = some ⟨.read true 0x11223344, none⟩ := by decide
theorem test_ram_writes : field State.ram (exec (.wrRamB (wr 1 0x101 0xAA)) start) =
      some ⟨.zero, [(0, 0x44), (1, 0xAA), (2, 0x22), (3, 0x11)]⟩ ∧
    field State.ram (exec (.wrRamH (wr 2 0x102 0xBEEF)) start) = some ⟨.zero, [(0, 0x44), (1, 0x33), (2, 0xEF), (3, 0xBE)]⟩ ∧
    field State.ram (exec (.wrRamB (wr 0 0x100 0xFFFFFF55)) start) =
      some ⟨.zero, [(0, 0x55), (1, 0x33), (2, 0x22), (3, 0x11)]⟩ ∧
    field State.ram (exec (.wrRamW (wr 4 0x104 0x01000002)) start) =
      some ⟨.zero, [(0, 0x44), (1, 0x33), (2, 0x22), (3, 0x11), (4, 2), (7, 1)]⟩ := by decide
theorem test_ram_overruns : refusal (exec (.rdRamW (rd 5 0x105)) start) = some .outOfBounds ∧
    refusal (exec (.rdRamH (rd 7 0x107)) start) = some .outOfBounds ∧
    refusal (exec (.wrRamW (wr 6 0x106 0)) start) = some .outOfBounds ∧
    lastResult (exec (.rdRamB (rd 7 0x107)) start) = some ⟨.read true 0, none⟩ := by decide

/-- `start` after a load of a file whose byte at an offset is the offset. -/
def loaded : State :=
  { start with bios := applyPatches small.biosPatches (Memory.ofBytes (Bytes.ofList ((List.range 16).map (BitVec.ofNat 8)))) }

theorem test_bios_reads : lastResult (exec (.rdBiosW (rd 1 0x1001)) loaded) = some ⟨.read true 0xAABBCCDD, none⟩ ∧
    lastResult (exec (.rdBiosH (rd 10 0x100A)) loaded) = some ⟨.read true 0x1122, none⟩ ∧
    lastResult (exec (.rdBiosB (rd 4 0x1004)) loaded) = some ⟨.read true 0xAA, none⟩ ∧
    lastResult (exec (.rdBiosW (rd 4 0x1004)) loaded) = some ⟨.read true 0x070605AA, none⟩ ∧
    refusal (exec (.rdBiosW (rd 14 0x100E)) loaded) = some .outOfBounds := by decide
theorem test_bios_writes_store : field State.bios (exec (.wrBiosB (wr 2 0x1002 0x5A)) start) = some ⟨.zero, [(2, 0x5A)]⟩ ∧
    field State.bios (exec (.wrBiosH (wr 2 0x1002 0x5AA5)) start) = some ⟨.zero, [(2, 0xA5), (3, 0x5A)]⟩ ∧
    field State.bios (exec (.wrBiosW (wr 2 0x1002 0x00C0B0A0)) start) = some ⟨.zero, [(2, 0xA0), (3, 0xB0), (4, 0xC0)]⟩ := by
  decide
theorem test_bios_writes_ignore :
    field State.bios (exec (.wrBiosB (wr 2 0x1002 0x5A)) { start with config := { small with biosWritePolicy := .ignore } }) =
      some ⟨.zero, []⟩ ∧
    lastResult (exec (.wrBiosW (wr 15 0x100F 1)) { start with config := { small with biosWritePolicy := .ignore } }) =
      some ⟨.write true, none⟩ := by decide
theorem test_bus_gate : refusal (exec (.rdRamB (rd 0 0x100)) { start with busUsable := false }) = some .busNotUsable ∧
    refusal (exec (.rdInvB (rd 0 0)) { start with busFailed := true }) = some .busFailed ∧
    refusal (exec .bsave { start with busUsable := false }) = some .busNotUsable := by decide

/-! ## Expansion Region 2 (95 section 2.4; 41) -/

theorem test_status : lastResult (exec (.rdExp2StatusB (rd 0x21 0x221)) start) = some ⟨.read true 0xC, none⟩ ∧
    lastResult (exec (.rdExp2StatusH (rd 0x21 0x221)) start) = some ⟨.read true 0xC, none⟩ ∧
    lastResult (exec (.rdExp2StatusW (rd 0x21 0x221)) start) = some ⟨.read true 0xC, none⟩ := by decide

/-- `start` with a TTY buffer and a flush policy. -/
def withTty (line : List Byte) (flushEmpty : Bool) : State :=
  { start with ttyLineBuffer := line, config := { small with ttyFlushEmpty := flushEmpty } }

theorem test_tty_append : field State.ttyLineBuffer (exec (.wrExp2TtyB (wr 0x23 0x223 0xFF)) (withTty [0x41, 0x00] true)) =
      some [0x41, 0x00, 0xFF] ∧
    field State.ttyLineBuffer (exec (.wrExp2TtyH (wr 0x23 0x223 0x4142)) (withTty [] true)) = some [0x42] ∧
    field State.ttyLineBuffer (exec (.wrExp2TtyW (wr 0x23 0x223 0x12345642)) (withTty [] true)) = some [0x42] ∧
    field State.ttyLineBuffer (exec (.wrExp2TtyB (wr 0x23 0x223 0x0D)) (withTty [0x41] true)) = some [0x41] := by decide
theorem test_tty_flush : lastEvent (exec (.wrExp2TtyB (wr 0x23 0x223 0x0A)) (withTty [0x48, 0x69] true)) =
      some (.logTty [0x48, 0x69]) ∧
    field State.ttyLineBuffer (exec (.wrExp2TtyW (wr 0x23 0x223 0xFFFFFF0A)) (withTty [0x42] true)) = some [] ∧
    lastEvent (exec (.wrExp2TtyH (wr 0x23 0x223 0x0A)) (withTty [] true)) = some (.logTty []) ∧
    field State.history (exec (.wrExp2TtyB (wr 0x23 0x223 0x0A)) (withTty [] false)) = some [] := by decide
theorem test_post : lastEvent (exec (.wrExp2PostB (wr 0x41 0x241 0xF7)) start) = some (.logPost 0x7) ∧
    lastEvent (exec (.wrExp2PostH (wr 0x41 0x241 0x10)) start) = some (.logPost 0x0) ∧
    lastEvent (exec (.wrExp2PostW (wr 0x41 0x241 0x0F)) start) = some (.logPost 0xF) := by decide
theorem test_exp2_invalid_reads : nextState (exec (.rdExp2InvB ⟨0x23, 0xBF80, 0x223⟩) start) =
      some ((start.record (.logInvalid .read .byte 0xBF80 0x223 none)).emit (.read true 0xFFFFFFFF) (some .invalidAccess)) ∧
    lastEvent (exec (.rdExp2InvH (rd 0x41 0x241)) start) = some (.logInvalid .read .halfWord 0x241 0x241 none) ∧
    lastResult (exec (.rdExp2InvW (rd 0x22 0x222)) start) = some ⟨.read true 0xFFFFFFFF, some .invalidAccess⟩ := by decide
theorem test_exp2_invalid_writes :
    lastEvent (exec (.wrExp2InvB (wr 0x21 0x221 0)) start) = some (.logInvalid .write .byte 0x221 0x221 (some 0)) ∧
    lastEvent (exec (.wrExp2InvH (wr 0x40 0x240 1)) start) = some (.logInvalid .write .halfWord 0x240 0x240 (some 1)) ∧
    nextState (exec (.wrExp2InvW (wr 0x22 0x222 0xFFFFFF0A)) (withTty [1] true)) = some (((withTty [1] true).record
      (.logInvalid .write .word 0x222 0x222 (some 0xFFFFFF0A))).emit (.write true) (some .invalidAccess)) := by decide

/-! ## Sound processor, DMA, invalid (95 sections 2.5 to 2.7) -/

theorem test_spu_reads :
    ([Instr.rdSpuStatB (rd 0x1AE 0), .rdSpuStatH (rd 0x1AE 0), .rdSpuStatW (rd 0x1AE 0), .rdSpuB (rd 0x1A8 0), .rdSpuH (rd 0 0),
      .rdSpuW (rd 0x1AA 0)].all fun i => nextState (exec i start) == some (start.emit (.read true 0) none)) = true := by decide
theorem test_spu_writes :
    ([Instr.wrSpuFifoB (wr 0x1A8 0 1), .wrSpuFifoH (wr 0x1A8 0 1), .wrSpuFifoW (wr 0x1A8 0 1), .wrSpuCtrlB (wr 0x1AA 0 1),
      .wrSpuCtrlH (wr 0x1AA 0 1), .wrSpuCtrlW (wr 0x1AA 0 1), .wrSpuB (wr 0 0 1), .wrSpuH (wr 0 0 1),
      .wrSpuW (wr 0x1AE 0 1)].all fun i => nextState (exec i start) == some (start.emit (.write true) none)) = true := by decide
theorem test_dma_forwarded : lastEvent (exec (.rdDmaW (rd 0x72 0) 0x1234) start) = some (.dmaRegRead 0x72) ∧
    lastResult (exec (.rdDmaW (rd 0x72 0) 0x1234) start) = some ⟨.read true 0x1234, none⟩ ∧
    lastEvent (exec (.wrDmaW (wr 0x70 0 0x07654321)) start) = some (.dmaRegWrite 0x70 0x07654321) := by decide
theorem test_dma_narrow : field State.busFailed (exec (.rdDmaB (rd 0x70 0x1F8010F0)) start) = some true ∧
    lastResult (exec (.rdDmaH (rd 0x70 0x1F8010F0)) start) =
      some ⟨.nothing, some (.dmaWidthAssert .read .halfWord 0x1F8010F0)⟩ ∧
    field State.history (exec (.wrDmaB (wr 0x70 0x1F8010F0 1)) start) = some [] ∧
    lastResult (exec (.wrDmaH (wr 0x74 0x1F8010F4 1)) start) =
      some ⟨.nothing, some (.dmaWidthAssert .write .halfWord 0x1F8010F4)⟩ := by decide
theorem test_invalid_reads : lastResult (exec (.rdInvB (rd 0x810 0x810)) start) = some ⟨.read true 0xFFFFFFFF, some .invalidAccess⟩ ∧
    lastEvent (exec (.rdInvH (rd 0x810 0x810)) start) = some (.logInvalid .read .halfWord 0x810 0x810 none) ∧
    lastEvent (exec (.rdInvW ⟨0x810, 0x9F801810, 0x810⟩) start) = some (.logInvalid .read .word 0x9F801810 0x810 none) ∧
    cpuValue .byte 0xFFFFFFFF = 0xFF ∧ cpuValue .halfWord 0xFFFFFFFF = 0xFFFF := by decide
theorem test_invalid_writes :
    lastEvent (exec (.wrInvB (wr 0x810 0x810 0xAABB)) start) = some (.logInvalid .write .byte 0x810 0x810 (some 0xAABB)) ∧
    lastEvent (exec (.wrInvH (wr 0x810 0x810 1)) start) = some (.logInvalid .write .halfWord 0x810 0x810 (some 1)) ∧
    lastResult (exec (.wrInvW (wr 0x810 0x810 1)) start) = some ⟨.write true, some .invalidAccess⟩ := by decide

/-! ## BIOS load (95 section 2.3) -/

theorem test_load_ok : field State.bios (exec (.loadbios (.bytes [⟨15, 0⟩, ⟨1, 7⟩])) (State.construct small ⟨0, 0⟩)) =
      some ⟨.zero, [(1, 0xDD), (2, 0xCC), (3, 0xBB), (4, 0xAA), (8, 0x44), (9, 0x33), (10, 0x22), (11, 0x11), (15, 7)]⟩ ∧
    field State.busUsable (exec (.loadbios (.bytes [⟨16, 0⟩])) (State.construct small ⟨0, 0⟩)) = some true := by decide
theorem test_load_fails :
    ([FileAnswer.absent, .bytes [⟨15, 0⟩], .bytes [⟨17, 0⟩], .bytes [], .shortRead 16].all fun f =>
      field State.busUsable (exec (.loadbios f) start) == some false &&
      lastResult (exec (.loadbios f) start) == some ⟨.loaded false, some .biosLoadFailure⟩) = true := by decide

/-! ## Transfers (95 sections 2.8, 2.9) -/

/-- The state of 95 section 2.8. -/
def engine : State := { start with buttonState := 0xF7FF, deltaY := 0xFE }

theorem test_transfer_idle : nextState (exec .xferIdleSel engine) =
      some ({ engine with transferState := .ready }.emit (.transfer true 0xFF) none) ∧
    lastResult (exec (.xferIdleOther 0x42) engine) = some ⟨.transfer false 0xFF, none⟩ ∧
    field State.transferState (exec (.xferIdleOther 0x00) engine) = some .idle := by decide
theorem test_transfer_ready : nextState (exec .xferReadyPoll engine) =
      some ({ engine with transferState := .idMsb }.emit (.transfer true 0x12) none) ∧
    nextState (exec (.xferReadyOther 0x43) engine) =
      some ({ engine with transferState := .idle }.emit (.transfer false 0xFF) none) := by decide
theorem test_transfer_data : lastResult (exec (.xferIdmsb 0x01) engine) = some ⟨.transfer true 0x5A, none⟩ ∧
    lastResult (exec (.xferBtnlsb 0xAB) engine) = some ⟨.transfer true 0xFF, none⟩ ∧
    lastResult (exec (.xferBtnmsb 0x00) engine) = some ⟨.transfer true 0xF7, none⟩ ∧
    lastResult (exec (.xferDeltay 0x42) engine) = some ⟨.transfer false 0xFE, none⟩ ∧
    field State.transferState (exec (.xferIdmsb 0x01) engine) = some .buttonsLsb ∧
    field State.transferState (exec (.xferBtnlsb 0x01) engine) = some .buttonsMsb ∧
    field State.transferState (exec (.xferBtnmsb 0x01) engine) = some .deltaX ∧
    field State.transferState (exec (.xferDeltay 0x01) engine) = some .idle := by decide

/-- The output byte, `delta_x`, `delta_y` and the baseline after a `DeltaX` row from a baseline. -/
def sample (c : Config) (baseX baseY : Int) (p : Position) : List Int :=
  match exec (.xferDeltax 0 p) { start with config := c, lastHostPositionX := baseX, lastHostPositionY := baseY } with
  | .next t =>
    match t.outputs.getLast? with
    | some ⟨.transfer true out, none⟩ => [out.toNat, t.deltaX.toInt, t.deltaY.toInt, t.lastHostPositionX, t.lastHostPositionY]
    | _ => []
  | _ => []

theorem test_sample : sample small 100 100 ⟨103, 98⟩ = [0x03, 3, -2, 103, 98] ∧
    sample small 0 0 ⟨127, -128⟩ = [0x7F, 127, -128, 127, -128] ∧
    sample small 0 0 ⟨128, -129⟩ = [0x7F, 127, -128, 128, -129] := by decide
theorem test_sample_extremes :
    sample Config.default (-2147483648) 0 ⟨2147483647, 0⟩ = [0x7F, 127, 0, 2147483647, 0] ∧
    sample Config.default 2147483647 0 ⟨-2147483648, 0⟩ = [0x80, -128, 0, -2147483648, 0] := by decide

/-! ## Control and serialization (95 sections 2.10, 2.11) -/

/-- `button_state` after an operation on a mask. -/
def buttonsAfter (mask : BitVec 16) (i : Instr) : Option (BitVec 16) := field State.buttonState (exec i { start with buttonState := mask })

theorem test_setbtn : buttonsAfter 0xFFFF (.setbtn 0 true) = some 0xF7FF ∧ buttonsAfter 0xF7FF (.setbtn 1 true) = some 0xF3FF ∧
    buttonsAfter 0xF3FF (.setbtn 0 false) = some 0xFBFF ∧ buttonsAfter 0x0000 (.setbtn 0 false) = some 0x0800 := by decide
theorem test_setbtnc : buttonsAfter 0xFFFF (.setbtnc 1 true) = some 0xFBFF ∧ buttonsAfter 0xFFFF (.setbtnc 0 true) = some 0xF7FF ∧
    buttonsAfter 0xFFFF (.setbtnc 2 true) = some 0xFFFF ∧ buttonsAfter 0xF3FF (.setbtnc 255 false) = some 0xF3FF ∧
    lastResult (exec (.setbtnc 2 true) start) = some ⟨.nothing, none⟩ := by decide
theorem test_preset : nextState (exec .preset { engine with transferState := .buttonsMsb }) =
    some ({ engine with transferState := .idle }.emit .nothing none) := by decide
theorem test_queries : lastResult (exec .gettype start) = some ⟨.deviceType .pointingDevice, none⟩ ∧
    lastResult (exec .getvmc start) = some ⟨.motorCount 0, none⟩ := by decide

/-- The bytes the last result appended to the stream. -/
def savedBytes (r : Effect) : Option (List Byte) :=
  match lastResult r with
  | some ⟨.saved b, none⟩ => some (Bytes.toList b)
  | _ => none

theorem test_psave : savedBytes (exec .psave { engine with deltaX := 3, transferState := .deltaY }) =
      some [0xFF, 0xF7, 0x03, 0xFE, 0x06] ∧
    savedBytes (exec .psave { start with buttonState := 0xF3FF, deltaX := 0x7F, deltaY := 0x80, transferState := .deltaX }) =
      some [0xFF, 0xF3, 0x7F, 0x80, 0x05] := by decide

/-- Button mask, deltas and state after a restore of a stream on the live engine of 95 section 2.11. -/
def restored (apply : Bool) (stream : List Byte) : Option (BitVec 16 × BitVec 8 × BitVec 8 × TransferState) :=
  field (fun t => (t.buttonState, t.deltaX, t.deltaY, t.transferState))
    (exec (.pload apply (Bytes.ofList stream)) { start with buttonState := 0xFBFF, deltaX := 5, deltaY := 6 })

theorem test_pload : restored false [0xFF, 0xF7, 0x03, 0xFE, 0x05] = some (0xFBFF, 5, 6, .deltaX) ∧
    restored true [0xFF, 0xF7, 0x03, 0xFE, 0x05] = some (0xF7FF, 3, 0xFE, .deltaX) := by decide
theorem test_pload_refused : refusal (exec (.pload true (Bytes.ofList [0xFF, 0xFF, 0, 0, 7])) start) = some .noSuchState ∧
    refusal (exec (.pload false (Bytes.ofList [0xFF, 0xFF, 0, 0, 0xFF])) start) = some .noSuchState ∧
    refusal (exec (.pload true (Bytes.ofList [0xFF, 0xF7, 0x03])) start) = some .shortStream := by decide

/-- The parameters of the `BSAVE` vector of 95 section 2.11. -/
def tiny : Config := { small with ramSize := 4, biosSize := 4, biosPatches := [] }

/-- The bus of the `BSAVE` vector. -/
def tinyBus : State := { start with
  config := tiny
  ram := ⟨.zero, [(0, 0x01), (1, 0x02), (2, 0x03), (3, 0x04)]⟩
  bios := ⟨.zero, [(0, 0xAA), (1, 0xBB), (2, 0xCC), (3, 0xDD)]⟩
  ttyLineBuffer := [0x48, 0x69] }

/-- The stream of the `BSAVE` vector. -/
def tinyStream : List Byte := [0x01, 0x02, 0x03, 0x04, 0xAA, 0xBB, 0xCC, 0xDD, 0x02, 0x00, 0x00, 0x00, 0x48, 0x69]

theorem test_bsave : savedBytes (exec .bsave tinyBus) = some tinyStream := by decide
theorem test_bload : field (fun t => (t.ram, t.bios, t.ttyLineBuffer, t.busUsable))
      (exec (.bload (Bytes.ofList tinyStream)) { State.construct tiny ⟨0, 0⟩ with ttyLineBuffer := [9] }) =
      some (tinyBus.ram, tinyBus.bios, [0x48, 0x69], true) ∧
    refusal (exec (.bload (Bytes.ofList (tinyStream.take 13))) tinyBus) = some .shortStream := by decide

/-! ## The step and the notation -/

theorem test_step_idle : nextState (step start) = some start := by decide
theorem test_step_runs_the_head :
    nextState (step { start with requests := [.txn 0x100000022300000041 0x223 0, .pcmd 0x1000 [] ⟨0, 0⟩] }) =
      some ({ start with requests := [.pcmd 0x1000 [] ⟨0, 0⟩], ttyLineBuffer := [0x41] }.emit (.write true) none) := by decide
theorem test_step_gate_first :
    refusal (step { start with busFailed := true, busUsable := false, requests := [.txn 0x300000000000000000 0 0] }) =
      some .busFailed := by decide
theorem test_step_reserved : refusal (step { start with requests := [.txn 0x030000010000000000 0 0] }) =
    some (.undecodable .reservedWidth) := by decide
theorem test_poll_words : poll ⟨1, 2⟩ = [.pcmd 0x0001 [] ⟨1, 2⟩, .pcmd 0x0042 [] ⟨1, 2⟩, .pcmd 0x0000 [] ⟨1, 2⟩,
    .pcmd 0x0000 [] ⟨1, 2⟩, .pcmd 0x0000 [] ⟨1, 2⟩, .pcmd 0x0000 [] ⟨1, 2⟩, .pcmd 0x0000 [] ⟨1, 2⟩] := by decide
theorem test_press_words : press 1 = .pcmd 0x2101 [] ⟨0, 0⟩ ∧ release 0 = .pcmd 0x2000 [] ⟨0, 0⟩ := by decide
theorem test_ttyputs_words : ttyPuts Config.default [0x48, 0x0A] =
    [.txn 0x101F80202300000048 0x1F802023 0, .txn 0x101F8020230000000A 0x1F802023 0] := by decide
theorem test_cpu_value : (field (State.lastCpuValue .byte) (exec (.rdInvB (rd 0x810 0x810)) start)).join = some 0xFF := by decide

/-! ## Witnesses: for every statement with hypotheses, a state and operands that meet them -/

/-- Known contents, and every field within its bounds. -/
theorem test_start_inv : start.Inv where
  config := by decide
  ram := by decide
  bios := by decide
  ramDrawn := fun _ h => by cases h
  biosDrawn := fun _ h => by cases h
  biosKnown := fun _ => rfl
  baselineX := by decide
  baselineY := by decide

theorem test_start_ready : Ready start := ⟨rfl, rfl⟩

/-- `start` with these requests. -/
def issued (l : List Request) : State := { start with requests := l }

theorem test_witness_DecodingAnEncodedInstructionGivesItBack : Config.default.wf = true ∧
    WellFormed Config.default (.rdRamW (rd 0x1FFFFC 0x007FFFFC)) = true ∧
    WellFormed Config.default (.wrInvB (wr 0xFFFFFFFF 0xFFFFFFFF 0xFFFFFFFF)) = true ∧
    WellFormed Config.default (.xferDeltax 0xFF ⟨2147483647, -2147483648⟩) = true ∧
    Instr.transferRow (.xferDeltax 0xFF ⟨2147483647, -2147483648⟩) = some .deltaX ∧
    WellFormed Config.default (.setbtn 1 true) = true ∧ Instr.transferRow (.setbtn 1 true) = none := by decide

theorem test_witness_EncodingADecodedTransactionGivesItBack :
    txn 0x02007FFFFC00000000 = some (.rdRamW (rd 0x1FFFFC 0x007FFFFC)) := by decide

/-- Words at the edge of each reserved range. -/
theorem test_witness_ReservedWordsAreRefused :
    1 < ((0x200000000000000000 : BitVec 72).extractLsb' 68 4).toNat ∧
    2 < ((0x030000000000000000 : BitVec 72).extractLsb' 64 4).toNat ∧
    ((0x000000000000000001 : BitVec 72).extractLsb' 68 4 = 0 ∧ (0x000000000000000001 : BitVec 72).extractLsb' 0 32 ≠ 0) ∧
    8 ≤ ((0x8000 : BitVec 16).extractLsb' 12 4).toNat ∧
    ((0x1800 : BitVec 16).extractLsb' 12 4 = 1 ∧ (0x1800 : BitVec 16).extractLsb' 0 12 ≠ 0) ∧
    ((0x0100 : BitVec 16).extractLsb' 12 4 = 0 ∧ (0x0100 : BitVec 16).extractLsb' 8 4 ≠ 0) ∧
    ((0x3200 : BitVec 16).extractLsb' 12 4 = 3 ∧ (0x3200 : BitVec 16).extractLsb' 9 3 ≠ 0) ∧
    ((0x5002 : BitVec 16).extractLsb' 12 4 = 5 ∧ (0x5002 : BitVec 16).extractLsb' 1 11 ≠ 0) ∧
    ((0x2002 : BitVec 16).extractLsb' 12 4 = 2 ∧
      Config.default.buttonCount ≤ ((0x2002 : BitVec 16).extractLsb' 0 8).toNat) ∧
    3 ≤ ((0x30 : BitVec 8).extractLsb' 4 4).toNat ∧
    (((0x21 : BitVec 8).extractLsb' 4 4).toNat < 3 ∧ (0x21 : BitVec 8).extractLsb' 0 4 ≠ 0) := by decide

theorem test_witness_TheOrderOfTheRegionChecksCannotBeObserved : Config.default.wf = true ∧
    Config.default.resolve 0x007FFFFF = (.ram, 0x1FFFFF) ∧ Config.default.resolve 0x00800000 = (.invalid, 0x00800000) ∧
    Config.default.resolve 0x1F801080 = (.dma, 0) ∧ Config.default.resolve 0x1FC7FFFF = (.bios, 0x7FFFF) := by decide

theorem test_witness_RamMirrorsNameOneByte : Config.default.wf = true ∧ Config.default.ram.contains 0x00000010 = true ∧
    Config.default.ram.contains 0x007FFFFF = true ∧ Config.default.ram.contains 0x00600010 = true := by decide

theorem test_witness_TheOffsetIsTheMaskedAddress : Config.default.wf = true ∧
    Config.default.window? .ram = some Config.default.ram ∧ Config.default.ram.contains 0x007FFFFF = true ∧
    Config.default.window? .spu = some Config.default.spu ∧ Config.default.spu.contains 0x1F801EFF = true := by decide

theorem test_witness_AStepRunsTheDecodedInstruction :
    (issued [.hcmd 0x10 .absent []]).config.wf = true ∧
    (issued [.hcmd 0x10 .absent []]).requests = .hcmd 0x10 .absent [] :: [] ∧
    decode small .idle (.hcmd 0x10 .absent []) = .ok .bsave ∧
    decode small .idle (.txn 0x02000001FC00000000 0 0) = .ok (.rdInvW ⟨0x1FC, 0, 0x1FC⟩) := by decide

/-- One witness for each clause: nothing issued; each check failing first. -/
theorem test_witness_AStepRefusesInTheOrderOfTheChecks :
    start.requests = [] ∧ ({ small with ramSize := 12 } : Config).wf = false ∧ start.config.wf = true ∧
    (Request.txn 0 0 0).isTransaction = true ∧
    ({ start with busFailed := true } : State).busFailed = true ∧ ({ start with busUsable := false } : State).busFailed = false ∧
    decode small .idle (.txn 0x030000000000000000 0 0) = .error .reservedWidth ∧
    (Request.pcmd 0x8000 [] ⟨0, 0⟩).isTransaction = false ∧
    decode small .idle (.pcmd 0x8000 [] ⟨0, 0⟩) = .error .reservedCommand := by decide

theorem test_witness_ConstructionMeetsTheInvariant : small.wf = true ∧ Config.default.wf = true := by decide

theorem test_witness_EveryStepKeepsTheInvariant :
    start.Inv ∧ ∃ t, step (issued [transferRequest 0x01 ⟨0, 0⟩]) = .next t ∧ (issued [transferRequest 0x01 ⟨0, 0⟩]).Inv :=
  ⟨test_start_inv, _, rfl, ⟨test_start_inv.config, test_start_inv.ram, test_start_inv.bios, test_start_inv.ramDrawn,
    test_start_inv.biosDrawn, test_start_inv.biosKnown, test_start_inv.baselineX, test_start_inv.baselineY⟩⟩

/-- A step on a failed bus, and a step that fails it. -/
theorem test_witness_OnlyTheWidthAssertionFailsTheBus :
    (∃ t, step { start with busFailed := true } = .next t) ∧
    field State.busFailed (step (issued [busReadRequest .byte 0 0x3000 0])) = some true ∧ start.busFailed = false := by
  refine ⟨⟨_, rfl⟩, ?_⟩
  decide

theorem test_witness_AnUnusableOrFailedBusAcceptsNothing : OnBus .bsave ∧ OnBus (.loadbios .absent) ∧
    (tableWord (.rdInvB (rd 0 0))).1 = .sel ∧ ({ start with busUsable := false } : State).busFailed = false := by
  refine ⟨.inr rfl, .inr rfl, rfl, rfl⟩

/-- A load and a restore that make an unusable bus usable, and a load that makes a usable one unusable. -/
theorem test_witness_OnlyLoadAndRestoreChangeUsability :
    field State.busUsable (step { start with busUsable := false, requests := [.hcmd 0 (.bytes [⟨16, 0⟩]) []] }) = some true ∧
    field State.busUsable (step { start with busUsable := false, requests := [.hcmd 0x20 .absent [⟨28, 0⟩]] }) = some true ∧
    lastResult (step { start with busUsable := false, requests := [.hcmd 0x20 .absent [⟨28, 0⟩]] }) =
      some ⟨.restored 28, none⟩ ∧
    field State.busUsable (step (issued [.hcmd 0 .absent []])) = some false := by decide

theorem test_witness_TheSequencerAdvancesOrReturnsToIdle :
    field State.transferState (step (issued [transferRequest 0x01 ⟨0, 0⟩])) = some .ready ∧
    field State.transferState (step (issued [.pcmd 0x5000 [⟨4, 0⟩, ⟨1, 6⟩] ⟨0, 0⟩])) = some .deltaY := by decide

theorem test_witness_TheHistoryOnlyGrows : (∃ t, step start = .next t) ∧
    ∃ t, step (issued [busWriteRequest .byte 0 0x241 7]) = .next t := ⟨⟨_, rfl⟩, _, rfl⟩

theorem test_witness_BusOperationsNeitherSeeNorChangeThePeripheral : OnBus (.wrExp2TtyB (wr 0x23 0x223 0x41)) ∧ OnBus (.bload []) :=
  ⟨.inl rfl, .inr rfl⟩

theorem test_witness_PeripheralOperationsNeitherSeeNorChangeTheBus : OnPeripheral .xferIdleSel ∧ OnPeripheral .psave :=
  ⟨.inl rfl, .inr rfl⟩

theorem test_witness_NoReadChangesTheHardware :
    (Instr.rdDmaW (rd 4 0x3004) 9 = selectRead .word .dma (rd 4 0x3004) 9 ∧
      ∃ t, exec (.rdDmaW (rd 4 0x3004) 9) start = .next t) ∧
    (Instr.rdRamB (rd 7 0x107) = selectRead .byte .ram (rd 7 0x107) 0 ∧ ∃ t, exec (.rdRamB (rd 7 0x107)) start = .next t) :=
  ⟨⟨rfl, _, rfl⟩, rfl, _, rfl⟩

/-- Every statement over a ready bus, and both sides of the bounds check: offset 4 of 8 bytes holds a word, offset 5 does not. -/
theorem test_witness_RamReadsReturnTheAddressedBytes : Ready start ∧ (rd 4 0x104).offset.toNat + 4 ≤ start.config.ramSize ∧
    start.config.ramSize < (rd 5 0x105).offset.toNat + 4 := ⟨⟨rfl, rfl⟩, by decide, by decide⟩

theorem test_witness_RamWritesStoreExactlyTheirBytes : Ready start ∧ (wr 6 0x106 1).offset.toNat + 2 ≤ start.config.ramSize ∧
    start.config.ramSize < (wr 7 0x107 1).offset.toNat + 2 := ⟨⟨rfl, rfl⟩, by decide, by decide⟩

theorem test_witness_BiosReadsReturnTheAddressedBytes : Ready start ∧ (rd 12 0x100C).offset.toNat + 4 ≤ start.config.biosSize ∧
    start.config.biosSize < (rd 13 0x100D).offset.toNat + 4 := ⟨⟨rfl, rfl⟩, by decide, by decide⟩

theorem test_witness_BiosWritesFollowThePolicy : Ready start ∧ start.config.biosWritePolicy = .store ∧
    ({ small with biosWritePolicy := .ignore } : Config).biosWritePolicy = .ignore ∧
    (wr 15 0x100F 1).offset.toNat + 1 ≤ start.config.biosSize ∧ start.config.biosSize < (wr 15 0x100F 1).offset.toNat + 2 :=
  ⟨⟨rfl, rfl⟩, rfl, rfl, by decide, by decide⟩

theorem test_witness_AWriteIsReadBackThroughEveryMirror : start.config.wf = true ∧ Ready start ∧
    start.config.ram.contains 0x104 = true ∧ start.config.ram.contains 0x11C = true ∧
    (0x104 : Word).toNat % start.config.ramSize = (0x11C : Word).toNat % start.config.ramSize ∧
    (0x104 : Word).toNat % start.config.ramSize + Width.word.bytes ≤ start.config.ramSize ∧
    lastResult (Host.Core.run core 2 (issued [busWriteRequest .word 0 0x104 0xDEADBEEF, busReadRequest .word 1 0x11C 7])) =
      some ⟨.read true 0xDEADBEEF, none⟩ :=
  ⟨by decide, ⟨rfl, rfl⟩, by decide, by decide, by decide, by decide, by decide⟩

theorem test_witness_TheStatusReadIsConstant : Ready start ∧
    Instr.rdExp2StatusW (rd 0x21 0x221) ∈ [Instr.rdExp2StatusB (rd 0x21 0x221), .rdExp2StatusH (rd 0x21 0x221),
      .rdExp2StatusW (rd 0x21 0x221)] := ⟨⟨rfl, rfl⟩, by decide⟩

/-- One witness for each clause: a carriage return; a line feed that logs; one that does not; an append with and without a bound. -/
theorem test_witness_TtyWritesAppendFlushOrAreIgnored : Ready (withTty [] false) ∧
    ((0x0D : Word).extractLsb' 0 8 : Byte) = 0x0D ∧ ((0xFFFFFF0A : Word).extractLsb' 0 8 : Byte) = 0x0A ∧
    (withTty [] true).config.ttyFlushEmpty = true ∧ (withTty [1] false).ttyLineBuffer ≠ [] ∧
    ((withTty [] false).ttyLineBuffer = [] ∧ (withTty [] false).config.ttyFlushEmpty = false) ∧
    ((0x41 : Word).extractLsb' 0 8 : Byte) ≠ 0x0D ∧ ((0x41 : Word).extractLsb' 0 8 : Byte) ≠ 0x0A ∧
    start.config.ttyBufCap = none ∧ ([1] : List Byte).length < 2 :=
  ⟨⟨rfl, rfl⟩, by decide, by decide, rfl, by decide, ⟨rfl, rfl⟩, by decide, by decide, rfl, by decide⟩

theorem test_witness_AFullBoundedTtyBufferRefuses :
    refusal (exec (.wrExp2TtyH (wr 0x23 0x223 0x41))
      { start with config := { small with ttyBufCap := some 2 }, ttyLineBuffer := [1, 2] }) = some .ttyBufferFull ∧
    field State.ttyLineBuffer (exec (.wrExp2TtyH (wr 0x23 0x223 0x41))
      { start with config := { small with ttyBufCap := some 2 }, ttyLineBuffer := [1] }) = some [1, 0x41] := by decide

theorem test_witness_ALineWrittenToTheTtyIsLogged : start.config.wf = true ∧ Ready start ∧ start.config.ttyBufCap = none ∧
    (0x0A : Byte) ∉ ([0x48, 0x0D, 0x69] : List Byte) ∧ start.config.ttyFlushEmpty = true ∧
    lastEvent (Host.Core.run core 4 (issued (ttyPuts small [0x48, 0x0D, 0x69, 0x0A]))) = some (.logTty [0x48, 0x69]) :=
  ⟨by decide, ⟨rfl, rfl⟩, rfl, by decide, rfl, by decide⟩

theorem test_witness_PostWritesLogTheLowNibble : Ready start ∧
    Instr.wrExp2PostB (wr 0x41 0x241 0xF7) ∈ [Instr.wrExp2PostB (wr 0x41 0x241 0xF7), .wrExp2PostH (wr 0x41 0x241 0xF7),
      .wrExp2PostW (wr 0x41 0x241 0xF7)] := ⟨⟨rfl, rfl⟩, by decide⟩

/-- Offsets beside the handled ones, and the handled ones in the other direction. -/
theorem test_witness_UnhandledExpansionAccessesAreInvalid : Ready start ∧ (0x23 : Word) ≠ 0x21 ∧ (0x21 : Word) ≠ 0x23 ∧
    (0x21 : Word) ≠ 0x41 := ⟨⟨rfl, rfl⟩, by decide, by decide, by decide⟩

theorem test_witness_SoundReadsAreZero : Ready start ∧ (0x1A8 : Word) ≠ 0x1AE ∧
    Instr.rdSpuW (rd 0x1AA 0) ∈ [Instr.rdSpuStatB (rd 0x1AA 0), .rdSpuStatH (rd 0x1AA 0), .rdSpuStatW (rd 0x1AA 0),
      .rdSpuB (rd 0x1AA 0), .rdSpuH (rd 0x1AA 0), .rdSpuW (rd 0x1AA 0)] := ⟨⟨rfl, rfl⟩, by decide, by decide⟩

theorem test_witness_SoundWritesAreDropped : Ready start ∧ (0x1AE : Word) ≠ 0x1A8 ∧ (0x1AE : Word) ≠ 0x1AA ∧
    Instr.wrSpuW (wr 0x1AE 0 1) ∈ [Instr.wrSpuFifoB (wr 0x1AE 0 1), .wrSpuFifoH (wr 0x1AE 0 1), .wrSpuFifoW (wr 0x1AE 0 1),
      .wrSpuCtrlB (wr 0x1AE 0 1), .wrSpuCtrlH (wr 0x1AE 0 1), .wrSpuCtrlW (wr 0x1AE 0 1), .wrSpuB (wr 0x1AE 0 1),
      .wrSpuH (wr 0x1AE 0 1), .wrSpuW (wr 0x1AE 0 1)] := ⟨⟨rfl, rfl⟩, by decide, by decide, by decide⟩

theorem test_witness_DmaWordAccessesAreForwarded : Ready start := ⟨rfl, rfl⟩
theorem test_witness_NarrowDmaAccessesFailTheBlock : Ready start := ⟨rfl, rfl⟩
theorem test_witness_InvalidAccessesCompleteAndLog : Ready start := ⟨rfl, rfl⟩

/-- A file of the expected size; a patched byte; an offset between the patches. -/
theorem test_witness_ALoadOfTheExpectedSizePatchesTheImage : start.config.wf = true ∧ start.busFailed = false ∧
    (Bytes.toList [⟨16, 0x5A⟩]).length = start.config.biosSize ∧ ((1, 0xAABBCCDD) : Nat × Word) ∈ start.config.biosPatches ∧
    ∀ p ∈ start.config.biosPatches, 5 < p.1 ∨ p.1 + 4 ≤ 5 := by decide

theorem test_witness_AFailedLoadLeavesTheBusUnusable : start.busFailed = false ∧
    (Bytes.toList [⟨15, 0⟩]).length ≠ start.config.biosSize ∧ (Bytes.toList [⟨17, 0⟩]).length ≠ start.config.biosSize ∧
    ∀ content, FileAnswer.shortRead 16 = .bytes content → (Bytes.toList content).length ≠ start.config.biosSize :=
  ⟨rfl, by decide, by decide, fun _ h => by cases h⟩

theorem test_witness_APatchedWordReadsBackAfterTheLoad : start.config.wf = true ∧ start.busFailed = false ∧
    (Bytes.toList [⟨16, 0x5A⟩]).length = start.config.biosSize ∧ ((8, 0x11223344) : Nat × Word) ∈ start.config.biosPatches ∧
    lastResult (Host.Core.run core 2 { State.construct small ⟨0, 0⟩ with requests :=
      [.hcmd 0x00 (.bytes [⟨16, 0x5A⟩]) [], busReadRequest .word 0 (small.bios.base + BitVec.ofNat 32 8) 0] }) =
      some ⟨.read true 0x11223344, none⟩ := by decide

theorem test_witness_SelectAndPollRowsAnswerAsTheTable : (0x42 : Byte) ≠ 0x01 ∧ (0x01 : Byte) ≠ 0x42 := by decide

/-- The ends of the coordinates' range. -/
theorem test_witness_TheDeltaXRowSamplesTheMotion : start.config.wf = true ∧
    start.config.positionFits ⟨2047, -2048⟩ = true := by decide

theorem test_witness_AnAnswerOutsideTheWidthActsAsItsResidue : sample small 0 0 ⟨4096 + 3, -4096 - 2⟩ = [0x03, 3, -2, 3, -2] := by decide

theorem test_witness_MotionBeyondTheClampIsLost : ∃ t u, exec (.xferDeltax 0 ⟨1100, 100⟩) start = .next t ∧
    exec (.xferDeltax 0 ⟨1100, 100⟩) t = .next u := ⟨_, _, rfl, rfl⟩

theorem test_witness_OnlyTheDeltaXRowSamples : (∀ input p, Instr.setbtn 0 true ≠ .xferDeltax input p) ∧
    (∀ apply stream, Instr.setbtn 0 true ≠ .pload apply stream) ∧ ∃ t, exec (.setbtn 0 true) start = .next t :=
  ⟨(fun _ _ h => by cases h), (fun _ _ h => by cases h), _, rfl⟩

theorem test_witness_AckIsFalseExactlyWhenIdleFollows :
    (Instr.transferRow (.xferDeltay 0) = some .deltaY ∧ ∃ t, exec (.xferDeltay 0) start = .next t) ∧
    Instr.transferRow .xferIdleSel = some .idle ∧ ∃ t, exec .xferIdleSel start = .next t := ⟨⟨rfl, _, rfl⟩, rfl, _, rfl⟩

theorem test_witness_AFullExchangeReportsButtonsAndMotion : start.config.wf = true ∧ start.transferState = .idle ∧
    start.config.positionFits ⟨1100, 97⟩ = true ∧
    field (fun t => t.outputs.map Result.response) (Host.Core.run core 7 (issued (poll ⟨1100, 97⟩))) =
      some [.transfer true 0xFF, .transfer true 0x12, .transfer true 0x5A, .transfer true 0xFF, .transfer true 0xFF,
        .transfer true 0x7F, .transfer false 0xFD] := by decide

theorem test_witness_AButtonUpdateChangesItsBitOnly : start.config.wf = true ∧ (1 : Byte).toNat < start.config.buttonCount := by
  decide

theorem test_witness_AButtonCodeIsItsIdentityOrIsIgnored : start.config.wf = true ∧ (1 : Byte).toNat < start.config.buttonCount ∧
    start.config.buttonCount ≤ (2 : Byte).toNat := by decide

theorem test_witness_PressThenReleaseIsARoundTrip : start.config.wf = true ∧
    start.config.buttonBit[(0 : Byte).toNat]? = some 11 ∧ start.buttonState.getLsbD 11 = true ∧
    ∃ t u, exec (.setbtn 0 true) start = .next t ∧ exec (.setbtn 0 false) t = .next u :=
  ⟨by decide, rfl, by decide, _, _, rfl, rfl⟩

/-- The last state code, the first that is none, and a stream one byte short. -/
theorem test_witness_PeripheralRestoreAppliesInputOnRequest :
    Bytes.toList [⟨4, 1⟩, ⟨1, 6⟩, ⟨1, 9⟩] = (1 : Byte) :: 1 :: 1 :: 1 :: 6 :: [9] ∧ (6 : Byte).toNat = TransferState.deltaY.code ∧
    Bytes.toList [⟨4, 1⟩, ⟨1, 7⟩] = (1 : Byte) :: 1 :: 1 :: 1 :: 7 :: [] ∧ 6 < (7 : Byte).toNat ∧
    (Bytes.toList [⟨4, 1⟩]).length < 5 := by decide

theorem test_witness_PeripheralSnapshotRoundTrip :
    ∃ bytes, exec .psave engine = .next (returning engine (.saved bytes)) := ⟨_, rfl⟩

theorem test_witness_TheBusSnapshotHoldsRamBiosAndTty : Ready start := ⟨rfl, rfl⟩

/-- Streams at each boundary of the small machine: 27 bytes; 28 with length 0; 28 with length 1; 29 with length 1. -/
theorem test_witness_TheBusRestoreReadsTheSnapshot : start.busFailed = false ∧
    (Bytes.toList [⟨27, 0⟩]).length < 8 + 16 + 4 ∧ 8 + 16 + 4 + 0 ≤ (Bytes.toList [⟨28, 0⟩]).length ∧
    (Bytes.toList [⟨24, 0⟩, ⟨1, 1⟩, ⟨3, 0⟩]).length < 8 + 16 + 4 + 1 ∧
    refusal (exec (.bload [⟨24, 0⟩, ⟨1, 1⟩, ⟨3, 0⟩]) start) = some .shortStream ∧
    field State.ttyLineBuffer (exec (.bload [⟨24, 0⟩, ⟨1, 1⟩, ⟨3, 0⟩, ⟨1, 0x41⟩]) start) = some [0x41] := by decide

theorem test_witness_BusSnapshotRoundTrip : Ready tinyBus ∧ (State.construct tiny ⟨0, 0⟩).busFailed = false ∧
    (State.construct tiny ⟨0, 0⟩).config = tinyBus.config ∧ tinyBus.ttyLineBuffer.length < 2 ^ 32 ∧
    ∃ bytes, exec .bsave tinyBus = .next (returning tinyBus (.saved bytes)) :=
  ⟨⟨rfl, rfl⟩, rfl, rfl, by decide, _, rfl⟩

theorem test_witness_ConstructionLeavesTheDocumentedState : small.wf = true ∧ small.positionFits ⟨-2048, 2047⟩ = true ∧
    (tableWord (.rdRamB (rd 0 0x100))).1 = .sel := by decide

end Sys2Proof.Tests
end

section
/-! PROOF. The statements of 00_scope.md: a step runs the decoded instruction (R15), every operation returns once and adds at most
one event (R12), and the two blocks share no state (R14). -/

namespace Sys2Proof.Machine

open Sys2Proof.Statements

/-! ## The gate of a bus transaction changes nothing (O10) -/

theorem whenReady_whenReady (s : State) (k : Effect) : whenReady s (whenReady s k) = whenReady s k := by
  cases hf : s.busFailed with
  | true => rw [whenReady_failed hf, whenReady_failed hf]
  | false =>
    cases hu : s.busUsable with
    | true => rw [whenReady_ready hu hf]
    | false => rw [whenReady_unusable hf hu, whenReady_unusable hf hu]

/-- Every bus transaction has the gate of block BUS in its own meaning (60 R279; log 21). -/
theorem exec_transaction_isGated {i : Instr} (h : (tableWord i).1 = .sel) (s : State) :
    ∃ k, exec i s = whenReady s k := by
  cases i with
  | xferIdleSel | xferIdleOther | xferReadyPoll | xferReadyOther | xferIdmsb | xferBtnlsb | xferBtnmsb | xferDeltax
  | xferDeltay | preset | setbtn | setbtnc | psave | pload | gettype | getvmc | loadbios | bsave | bload => cases h
  | _ => exact ⟨_, rfl⟩

theorem whenReady_exec_transaction {i : Instr} (h : (tableWord i).1 = .sel) (s : State) :
    whenReady s (exec i s) = exec i s := by
  obtain ⟨k, hk⟩ := exec_transaction_isGated h s
  rw [hk, whenReady_whenReady]

theorem tableWord_selectRead (w : Width) (r : Region) (o : ReadOperands) (answer : Word) :
    (tableWord (selectRead w r o answer)).1 = .sel := by
  cases r with
  | exp2 | spu => rw [selectRead]; split <;> cases w <;> rfl
  | ram | bios | dma | invalid => cases w <;> rfl

theorem tableWord_selectWrite (w : Width) (r : Region) (o : WriteOperands) :
    (tableWord (selectWrite w r o)).1 = .sel := by
  cases r with
  | exp2 | spu =>
    rw [selectWrite]
    split
    · cases w <;> rfl
    · split <;> cases w <;> rfl
  | ram | bios | dma | invalid => cases w <;> rfl

theorem tableWord_selector (sel : Selector) (cpu bus wdata answer : Word) :
    (tableWord (sel.instr cpu bus wdata answer)).1 = .sel := by
  unfold Selector.instr
  split
  · exact tableWord_selectRead ..
  · exact tableWord_selectWrite ..

/-- What a successful decoding of a `TXN` or `SEL` word answers is the operation of a selector. -/
theorem tableWord_of_map_selector {d : Except DecodeError Selector} {cpu bus wdata answer : Word} {i : Instr}
    (h : d.map (fun sel => sel.instr cpu bus wdata answer) = .ok i) : (tableWord i).1 = .sel := by
  cases d with
  | error => cases h
  | ok sel => cases h; exact tableWord_selector ..

/-- A request that is a bus transaction decodes to the instruction of a transaction row (30 R88, R89). -/
theorem tableWord_of_decode_transaction {c : Config} {ts : TransferState} {r : Request} {i : Instr}
    (ht : r.isTransaction = true) (hd : decode c ts r = .ok i) : (tableWord i).1 = .sel := by
  cases r with
  | txn | sel => exact tableWord_of_map_selector hd
  | pcmd | hcmd => cases ht

theorem gateRequest_exec {r : Request} {i : Instr} {c : Config} {ts : TransferState} (hd : decode c ts r = .ok i)
    (s : State) : gateRequest r s (exec i s) = exec i s := by
  unfold gateRequest
  split
  · next ht => exact whenReady_exec_transaction (tableWord_of_decode_transaction ht hd) s
  · rfl

theorem runRequest_decoded {s : State} {r : Request} {i : Instr} (hw : s.config.wf = true)
    (hd : decode s.config s.transferState r = .ok i) : runRequest exec r s = gateRequest r s (exec i s) := by
  rw [runRequest, if_pos hw, hd]; rfl

theorem step_cons {s : State} {r : Request} {rest : List Request} (h : s.requests = r :: rest) :
    step s = runRequest exec r { s with requests := rest } := by
  unfold step; rw [h]

/-! ## One result and at most one event an operation (O18) -/

/-- From `s` to `t` one result was added and at most one event, and the queue stayed. -/
structure AddsOneResult (s t : State) : Prop where
  requests : t.requests = s.requests
  outputs : ∃ x, t.outputs = s.outputs ++ [x]
  history : t.history = s.history ∨ ∃ e, t.history = s.history ++ [e]

variable {s u : State}

/-- A result emitted after changes that left the queue and both records alone. -/
theorem addsOneResult_emit (r : Response) (c : Option Condition) (hq : u.requests = s.requests := by rfl)
    (ho : u.outputs = s.outputs := by rfl) (hh : u.history = s.history := by rfl) : AddsOneResult s (u.emit r c) :=
  ⟨hq, ⟨⟨r, c⟩, by simp [ho]⟩, .inl hh⟩

/-- A result emitted after changes that left the queue and the results alone and added one event. -/
theorem addsOneResult_logged (e : Event) (r : Response) (c : Option Condition)
    (hq : u.requests = s.requests := by rfl) (ho : u.outputs = s.outputs := by rfl)
    (hh : u.history = s.history ++ [e] := by rfl) : AddsOneResult s (u.emit r c) :=
  ⟨hq, ⟨⟨r, c⟩, by simp [ho]⟩, .inr ⟨e, hh⟩⟩

/-- Every instruction that completes returns once (20 R64), whatever of the three logs and calls it makes (00 R12). -/
theorem exec_addsOneResult {i : Instr} {t : State} (h : exec i s = .next t) : AddsOneResult s t := by
  obtain ⟨r, c, rfl | ⟨e, rfl⟩⟩ | ⟨d, w, a, -, rfl⟩ | ⟨o, v, w, -, rfl⟩ | ⟨o, v, w, -, -, rfl⟩ | ⟨b, rfl⟩ | rfl |
    ⟨ack, out, n, row, -, -, -, rfl⟩ | ⟨input, p, -, rfl⟩ | ⟨-, rfl⟩ | ⟨m, rfl⟩ | ⟨apply, stream, m, dx, dy, n, -, rfl⟩ |
    ⟨content, -, -, rfl⟩ | ⟨file, -, rfl⟩ | ⟨stream, n, tty, -, -, rfl⟩ := exec_cases h
  · exact addsOneResult_emit r c
  · exact addsOneResult_logged e r c
  · exact addsOneResult_emit ..
  · exact addsOneResult_emit ..
  · exact addsOneResult_emit ..
  · exact addsOneResult_emit ..
  · exact addsOneResult_logged (.logTty s.ttyLineBuffer) ..
  · exact addsOneResult_emit ..
  · exact addsOneResult_logged (.pointerPosition (s.config.toCoordinate p.x) (s.config.toCoordinate p.y)) ..
  · exact addsOneResult_emit ..
  · exact addsOneResult_emit ..
  · exact addsOneResult_emit _ _ (by simp) (by simp) (by simp)
  · exact addsOneResult_emit ..
  · exact addsOneResult_emit ..
  · exact addsOneResult_emit ..

/-! ## Operations that commute with replacing the other block (O19, O20) -/

/-- The operation commutes with a change of the state: made before it or after it, the change gives the same outcome. -/
def Commutes (f : State → State) (op : State → Effect) : Prop := ∀ s, op (f s) = mapNext f (op s)

variable {f : State → State}

/-- A check of something the change leaves alone. -/
theorem Commutes.ite {c : State → Prop} [DecidablePred c] {a b : State → Effect} (hc : ∀ s, c (f s) ↔ c s)
    (ha : Commutes f a) (hb : Commutes f b) : Commutes f fun s => if c s then a s else b s := by
  intro s
  by_cases h : c s
  · simpa [hc, h] using ha s
  · simpa [hc, h] using hb s

section Bus

variable {ts : TransferState} {buttons : BitVec 16} {dx dy : BitVec 8} {px py : Int}

@[simp] theorem withPeripheral_config (s : State) : (withPeripheral ts buttons dx dy px py s).config = s.config := rfl

theorem Commutes.whenAlive {k : State → Effect} (hk : Commutes (withPeripheral ts buttons dx dy px py) k) :
    Commutes (withPeripheral ts buttons dx dy px py) fun s => whenAlive s (k s) :=
  .ite (fun _ => Iff.rfl) (fun _ => rfl) hk

theorem Commutes.whenReady {k : State → Effect} (hk : Commutes (withPeripheral ts buttons dx dy px py) k) :
    Commutes (withPeripheral ts buttons dx dy px py) fun s => whenReady s (k s) :=
  .whenAlive (.ite (fun _ => Iff.rfl) hk fun _ => rfl)

theorem readBuffer_withPeripheral (m : Memory) (size : Nat) (w : Width) (offset : Word) :
    Commutes (withPeripheral ts buttons dx dy px py) (readBuffer m size w offset) :=
  .whenReady (.ite (fun _ => Iff.rfl) (fun _ => rfl) fun _ => rfl)

theorem ramWrite_withPeripheral (w : Width) (o : WriteOperands) :
    Commutes (withPeripheral ts buttons dx dy px py) (ramWrite w o) :=
  .whenReady (.ite (fun _ => Iff.rfl) (fun _ => rfl) fun _ => rfl)

theorem biosWrite_withPeripheral (w : Width) (o : WriteOperands) :
    Commutes (withPeripheral ts buttons dx dy px py) (biosWrite w o) := by
  refine .whenReady fun s => ?_
  rw [withPeripheral_config]
  split
  · rfl
  · split <;> rfl

theorem ttyFlush_withPeripheral (s : State) :
    ttyFlush (withPeripheral ts buttons dx dy px py s) = withPeripheral ts buttons dx dy px py (ttyFlush s) := by
  unfold ttyFlush
  rw [apply_ite (withPeripheral ts buttons dx dy px py)]
  rfl

theorem ttyWrite_withPeripheral (o : WriteOperands) :
    Commutes (withPeripheral ts buttons dx dy px py) (ttyWrite o) :=
  .whenReady (.ite (fun _ => Iff.rfl) (fun _ => rfl)
    (.ite (fun _ => Iff.rfl) (fun s => congrArg (fun u : State => Host.Outcome.next u.writeDone) (ttyFlush_withPeripheral s))
      (.ite (fun _ => Iff.rfl) (fun _ => rfl) fun _ => rfl)))

theorem execLoadbios_withPeripheral (file : FileAnswer) :
    Commutes (withPeripheral ts buttons dx dy px py) (execLoadbios file) := by
  refine .whenAlive fun s => ?_
  cases file with
  | absent | shortRead => rfl
  | bytes content =>
    dsimp only
    rw [withPeripheral_config]
    split <;> rfl

theorem execBload_withPeripheral (stream : Bytes) :
    Commutes (withPeripheral ts buttons dx dy px py) (execBload stream) :=
  .whenAlive (.ite (fun _ => Iff.rfl) (fun _ => rfl) fun _ => rfl)

/-- Every operation of block BUS, by the shared operation it is (00 R14). -/
theorem exec_withPeripheral {i : Instr} (h : OnBus i) : Commutes (withPeripheral ts buttons dx dy px py) (exec i) := by
  cases i with
  | rdRamB | rdRamH | rdRamW | rdBiosB | rdBiosH | rdBiosW => exact fun s => readBuffer_withPeripheral _ _ _ _ s
  | wrRamB | wrRamH | wrRamW => exact ramWrite_withPeripheral _ _
  | wrBiosB | wrBiosH | wrBiosW => exact biosWrite_withPeripheral _ _
  | wrExp2TtyB | wrExp2TtyH | wrExp2TtyW => exact ttyWrite_withPeripheral _
  | loadbios => exact execLoadbios_withPeripheral _
  | bload => exact execBload_withPeripheral _
  | xferIdleSel | xferIdleOther | xferReadyPoll | xferReadyOther | xferIdmsb | xferBtnlsb | xferBtnmsb | xferDeltax
  | xferDeltay | preset | setbtn | setbtnc | psave | pload | gettype | getvmc => rcases h with h | h <;> cases h
  | _ => exact .whenReady fun _ => rfl

end Bus

section Peripheral

variable {ram bios : Memory} {usable failed : Bool} {tty : List Byte}

@[simp] theorem withBus_config (s : State) : (withBus ram bios usable failed tty s).config = s.config := rfl

theorem updateButton_withBus (identity : Nat) (pressed : Bool) :
    Commutes (withBus ram bios usable failed tty) (updateButton identity pressed) := by
  intro s
  simp only [updateButton, withBus_config]
  split <;> rfl

theorem execSetbtnc_withBus (code : Byte) (pressed : Bool) :
    Commutes (withBus ram bios usable failed tty) (execSetbtnc code pressed) := by
  refine .ite (fun _ => Iff.rfl) (fun s => ?_) fun _ => rfl
  simp only [withBus_config]
  split
  · exact updateButton_withBus _ _ s
  · rfl

theorem execPload_withBus (apply : Bool) (stream : Bytes) :
    Commutes (withBus ram bios usable failed tty) (execPload apply stream) := by
  intro s
  unfold execPload
  split
  · split
    · cases apply <;> rfl
    · rfl
  · rfl

/-- Every operation of block PERIPH: the button updates and the restore branch, the others answer in one way (00 R14). -/
theorem exec_withBus {i : Instr} (h : OnPeripheral i) : Commutes (withBus ram bios usable failed tty) (exec i) := by
  cases i with
  | setbtn => exact updateButton_withBus _ _
  | setbtnc => exact execSetbtnc_withBus _ _
  | pload => exact execPload_withBus _ _
  | xferIdleSel | xferIdleOther | xferReadyPoll | xferReadyOther | xferIdmsb | xferBtnlsb | xferBtnmsb | xferDeltax
  | xferDeltay | preset | psave | gettype | getvmc => exact fun _ => rfl
  | _ => rcases h with h | h <;> cases h

end Peripheral

end Sys2Proof.Machine

/-! ## The statements -/

namespace Sys2Proof.Proofs

open Sys2Proof.Machine Sys2Proof.Statements

/-- Settles O10: the gate of a transaction stands in its meaning too, so passing it once more changes nothing. -/
theorem aStepRunsTheDecodedInstruction : Obligations.AStepRunsTheDecodedInstruction := by
  intro s r rest i hw hr hd
  calc step s
      = runRequest exec r { s with requests := rest } := step_cons hr
    _ = gateRequest r _ (exec i { s with requests := rest }) := runRequest_decoded hw hd
    _ = exec i { s with requests := rest } := gateRequest_exec hd _

/-- Settles O18: a step with a request runs one instruction, and `exec_addsOneResult` says what that adds. -/
theorem theHistoryOnlyGrows : Obligations.TheHistoryOnlyGrows := by
  intro s t h
  rcases step_cases h with hidle | ⟨r, rest, i, hr, -, -, -, he⟩
  · exact .inl hidle
  · obtain ⟨hq, ho, hh⟩ := exec_addsOneResult he
    exact .inr ⟨⟨r, by rw [hr, hq]⟩, ho, hh⟩

/-- Settles O19, by the shared operation that each row of block BUS is. -/
theorem busOperationsNeitherSeeNorChangeThePeripheral : Obligations.BusOperationsNeitherSeeNorChangeThePeripheral :=
  fun _ s _ _ _ _ _ _ h => exec_withPeripheral h s

/-- Settles O20, by the shared operation that each row of block PERIPH is. -/
theorem peripheralOperationsNeitherSeeNorChangeTheBus : Obligations.PeripheralOperationsNeitherSeeNorChangeTheBus :=
  fun _ s _ _ _ _ _ h => exec_withBus h s

end Sys2Proof.Proofs
end

section
/-! PROOF. The statements of 10_state.md: the invariant of every step (R28 to R36), who fails the bus (R32), who changes its
usability (R30), and how the sequencer moves (R37). -/

namespace Sys2Proof.Machine

/-! ## Every step keeps the invariant (O13) -/

theorem Memory.drawn_zero (cells : List Host.Cell) (n : Nat) : Memory.drawn ⟨.zero, cells⟩ n := fun _ hk => by cases hk

theorem Memory.drawn.mono {m : Memory} {n n' : Nat} (h : m.drawn n) (hn : n ≤ n') : m.drawn n' :=
  fun k hk => (h k hk).trans_le hn

theorem Memory.drawn.storeLE {m : Memory} {n : Nat} (h : m.drawn n) (o : Nat) (v : Word) (k : Nat) :
    (m.storeLE o v k).drawn n := by
  simpa [Memory.drawn] using h

variable {s t : State}

theorem State.Inv.emit (h : s.Inv) (r : Response) (c : Option Condition) : (s.emit r c).Inv := { h with }

theorem State.Inv.record (h : s.Inv) (e : Event) : (s.record e).Inv := { h with }

/-- The new baseline is a coordinate because it was reduced to one (10 R36; log 6). -/
theorem State.Inv.sampleMotion (h : s.Inv) (p : Position) : (sampleMotion p s).Inv :=
  have hp := posBits_pos h.config
  { h with baselineX := coordinateFits_toCoordinate hp _, baselineY := coordinateFits_toCoordinate hp _ }

theorem State.Inv.applyInput (h : s.Inv) (apply : Bool) (m : BitVec 16) (dx dy : BitVec 8) :
    (applyInput apply m dx dy s).Inv := by
  cases apply
  · exact h
  · exact { h with }

/-- The image after a load is the file's bytes with the patches over them, so all of it is known (45 R190, R193). -/
theorem State.Inv.loadSuccess (h : s.Inv) {content : Bytes} (hs : Bytes.size content = s.config.biosSize) :
    (loadSuccess content s).Inv := by
  obtain ⟨hw, hz⟩ := applyPatches_wf s.config.biosPatches (Memory.wf_ofBytes hs.le) (patch_inside h.config)
  exact { h with
    bios := hw
    biosDrawn := fun k hk => by cases hz.symm.trans hk
    biosKnown := fun _ => hz }

/-- The unspecified contents after a failed load are the next draw, and the bus is not usable (45 R192; log 4). -/
theorem State.Inv.loadFailure (h : s.Inv) : (loadFailure s).Inv :=
  { h with
    bios := Memory.wf_empty _ _
    ramDrawn := h.ramDrawn.mono (Nat.le_succ _)
    biosDrawn := fun k hk => by cases hk; exact Nat.lt_succ_self _
    biosKnown := fun hu => by cases hu }

/-- Both restored buffers hold as many bytes as their sizes take from the stream (48 R259). -/
theorem State.Inv.busRestore (h : s.Inv) (stream : Bytes) (tty : List Byte) :
    ({ s with
      ram := Memory.ofBytes (splitSnapshot s.config stream).1
      bios := Memory.ofBytes (splitSnapshot s.config stream).2.1
      ttyLineBuffer := tty
      busUsable := true } : State).Inv :=
  { h with
    ram := Memory.wf_ofBytes (size_take_le _ _)
    bios := Memory.wf_ofBytes (size_take_le _ _)
    ramDrawn := Memory.drawn_zero _ _
    biosDrawn := Memory.drawn_zero _ _
    biosKnown := fun _ => rfl }

theorem exec_keeps_inv {i : Instr} (hi : s.Inv) (h : exec i s = .next t) : t.Inv := by
  obtain ⟨r, c, rfl | ⟨e, rfl⟩⟩ | ⟨d, w, a, -, rfl⟩ | ⟨o, v, w, hb, rfl⟩ | ⟨o, v, w, -, hb, rfl⟩ | ⟨b, rfl⟩ | rfl |
    ⟨ack, out, n, row, -, -, -, rfl⟩ | ⟨input, p, -, rfl⟩ | ⟨-, rfl⟩ | ⟨m, rfl⟩ | ⟨apply, stream, m, dx, dy, n, -, rfl⟩ |
    ⟨content, -, hs, rfl⟩ | ⟨file, -, rfl⟩ | ⟨stream, n, tty, -, -, rfl⟩ := exec_cases h
  · exact hi.emit r c
  · exact (hi.record e).emit r c
  · exact { hi with }
  · exact { hi with ram := Memory.wf_storeLE hi.ram hb v, ramDrawn := hi.ramDrawn.storeLE o v _ }
  · exact { hi with
      bios := Memory.wf_storeLE hi.bios hb v
      biosDrawn := hi.biosDrawn.storeLE o v _
      biosKnown := fun hu => (Memory.storeLE_fill ..).trans (hi.biosKnown hu) }
  · exact { hi with }
  · exact { hi with }
  · exact { hi with }
  · exact { hi.sampleMotion p with }
  · exact { hi with }
  · exact { hi with }
  · exact { hi.applyInput apply m dx dy with }
  · exact hi.loadSuccess hs
  · exact hi.loadFailure
  · exact (hi.busRestore stream tty).emit _ _

/-! ## The flags of block BUS and the place of the sequencer (O14, O16, O17) -/

/-- What an instruction from `s` to `t` does to `bus_usable`, `bus_failed` and `transfer_state`: at most one of them changes, and
each change is by the instructions that 10 R30, R32 and R37 name. -/
inductive ControlChange (i : Instr) (s t : State) : Prop where
  | unchanged (usable : t.busUsable = s.busUsable) (failed : t.busFailed = s.busFailed)
      (state : t.transferState = s.transferState)
  | widthAsserted (d : Direction) (w : Width) (a : Word) (narrow : w ≠ .word) (usable : t.busUsable = s.busUsable)
      (failed : t.busFailed = true) (state : t.transferState = s.transferState)
      (result : t.outputs = s.outputs ++ [⟨.nothing, some (.dmaWidthAssert d w a)⟩])
  | loaded (file : FileAnswer) (instr : i = .loadbios file) (usable : t.busUsable = true)
      (failed : t.busFailed = s.busFailed) (state : t.transferState = s.transferState)
      (result : t.outputs = s.outputs ++ [⟨.loaded true, none⟩])
  | loadFailed (file : FileAnswer) (instr : i = .loadbios file) (usable : t.busUsable = false)
      (failed : t.busFailed = s.busFailed) (state : t.transferState = s.transferState)
      (result : t.outputs = s.outputs ++ [⟨.loaded false, some .biosLoadFailure⟩])
  | busRestored (stream : Bytes) (n : Nat) (instr : i = .bload stream)
      (consumed : s.config.ramSize + s.config.biosSize + 4 ≤ n) (usable : t.busUsable = true)
      (failed : t.busFailed = s.busFailed) (state : t.transferState = s.transferState)
      (result : t.outputs = s.outputs ++ [⟨.restored n, none⟩])
  | advanced (row : TransferState) (selected : i.transferRow = some row) (usable : t.busUsable = s.busUsable)
      (failed : t.busFailed = s.busFailed) (state : t.transferState = row.successor)
  | returnedToIdle (usable : t.busUsable = s.busUsable) (failed : t.busFailed = s.busFailed)
      (state : t.transferState = .idle)
  | peripheralRestored (usable : t.busUsable = s.busUsable) (failed : t.busFailed = s.busFailed)
      (result : t.outputs = s.outputs ++ [⟨.restored 5, none⟩])

theorem exec_control {i : Instr} (h : exec i s = .next t) : t.config = s.config ∧ ControlChange i s t := by
  obtain ⟨r, c, rfl | ⟨e, rfl⟩⟩ | ⟨d, w, a, hw, rfl⟩ | ⟨o, v, w, -, rfl⟩ | ⟨o, v, w, -, -, rfl⟩ | ⟨b, rfl⟩ | rfl |
    ⟨ack, out, n, row, hrow, rfl | rfl, -, rfl⟩ | ⟨input, p, rfl, rfl⟩ | ⟨-, rfl⟩ | ⟨m, rfl⟩ |
    ⟨apply, stream, m, dx, dy, n, -, rfl⟩ | ⟨content, hi, -, rfl⟩ | ⟨file, hi, rfl⟩ | ⟨stream, n, tty, hi, hn, rfl⟩ :=
    exec_cases h
  · exact ⟨rfl, .unchanged rfl rfl rfl⟩
  · exact ⟨rfl, .unchanged rfl rfl rfl⟩
  · exact ⟨rfl, .widthAsserted d w a hw rfl rfl rfl rfl⟩
  · exact ⟨rfl, .unchanged rfl rfl rfl⟩
  · exact ⟨rfl, .unchanged rfl rfl rfl⟩
  · exact ⟨rfl, .unchanged rfl rfl rfl⟩
  · exact ⟨rfl, .unchanged rfl rfl rfl⟩
  · exact ⟨rfl, .advanced row hrow rfl rfl rfl⟩
  · exact ⟨rfl, .returnedToIdle rfl rfl rfl⟩
  · exact ⟨rfl, .advanced .deltaX rfl rfl rfl rfl⟩
  · exact ⟨rfl, .returnedToIdle rfl rfl rfl⟩
  · exact ⟨rfl, .unchanged rfl rfl rfl⟩
  · exact ⟨by simp, .peripheralRestored (by simp) (by simp) (by simp)⟩
  · exact ⟨rfl, .loaded _ hi rfl rfl rfl rfl⟩
  · exact ⟨rfl, .loadFailed file hi rfl rfl rfl rfl⟩
  · exact ⟨rfl, .busRestored stream n hi hn rfl rfl rfl rfl⟩

/-- 10 R32: only the width assertion touches `bus_failed`, and it sets it. -/
theorem ControlChange.busFailed {i : Instr} (h : ControlChange i s t) :
    t.busFailed = s.busFailed ∨ (t.busFailed = true ∧
      ∃ d w a, w ≠ .word ∧ t.outputs = s.outputs ++ [⟨.nothing, some (.dmaWidthAssert d w a)⟩]) := by
  cases h with
  | widthAsserted d w a narrow _ failed _ result => exact .inr ⟨failed, d, w, a, narrow, result⟩
  | unchanged _ failed | loaded _ _ _ failed | loadFailed _ _ _ failed | busRestored _ _ _ _ _ failed
  | advanced _ _ _ failed | returnedToIdle _ failed | peripheralRestored _ failed => exact .inl failed

/-! ## A transfer is decoded in its row's state (O17) -/

theorem eq_of_whenZero {n : Nat} {unused : BitVec n} {i j : Instr} (h : whenZero unused i = .ok j) : j = i := by
  unfold whenZero at h
  split at h <;> cases h
  rfl

theorem transferRow_selectTransfer (ts : TransferState) (input : Byte) (p : Position) :
    (selectTransfer ts input p).transferRow = some ts := by
  cases ts with
  | idle | ready => rw [selectTransfer]; split <;> rfl
  | idMsb | buttonsLsb | buttonsMsb | deltaX | deltaY => rfl

theorem transferRow_of_sel {i : Instr} (h : (tableWord i).1 = .sel) : i.transferRow = none := by
  cases i with
  | xferIdleSel | xferIdleOther | xferReadyPoll | xferReadyOther | xferIdmsb | xferBtnlsb | xferBtnmsb | xferDeltax
  | xferDeltay => cases h
  | _ => rfl

variable {c : Config} {ts : TransferState} {i : Instr}

theorem transferRow_of_decodePcmd {p : BitVec 16} {stream : Bytes} {pointer : Position}
    (h : decodePcmd c ts p stream pointer = .ok i) : i.transferRow = none ∨ i.transferRow = some ts := by
  unfold decodePcmd at h
  split at h
  case h_1 => -- a transfer
    rw [eq_of_whenZero h]; exact .inr (transferRow_selectTransfer ..)
  case h_3 => -- `SETBTN`
    split at h
    · rw [eq_of_whenZero h]; exact .inl rfl
    · cases h
  case h_9 => cases h -- a reserved code
  all_goals rw [eq_of_whenZero h]; exact .inl rfl

theorem transferRow_of_decodeHcmd {w : BitVec 8} {file : FileAnswer} {stream : Bytes}
    (h : decodeHcmd w file stream = .ok i) : i.transferRow = none := by
  unfold decodeHcmd at h
  split at h
  case h_4 => cases h -- a reserved code
  all_goals rw [eq_of_whenZero h]; rfl

/-- 30 R90: a word decodes to a transfer of the state the engine is in, or to no transfer. -/
theorem transferRow_of_decode {r : Request} (h : decode c ts r = .ok i) : i.transferRow = none ∨ i.transferRow = some ts := by
  cases r with
  | txn | sel => exact .inl (transferRow_of_sel (tableWord_of_decode_transaction rfl h))
  | pcmd => exact transferRow_of_decodePcmd h
  | hcmd => exact .inl (transferRow_of_decodeHcmd h)

end Sys2Proof.Machine

namespace Sys2Proof.Proofs

open Sys2Proof.Machine Sys2Proof.Statements

/-- Settles O13: an idle step changes nothing, and what an instruction changes is again in form. -/
theorem everyStepKeepsTheInvariant : Obligations.EveryStepKeepsTheInvariant := by
  intro s t hi h
  obtain ⟨-, rfl⟩ | ⟨r, rest, i, -, -, -, -, he⟩ := step_cases h
  · exact hi
  · have taken : ({ s with requests := rest } : State).Inv := { hi with }
    exact exec_keeps_inv taken he

/-- Settles O14: of the changes an instruction can make to the flags only the width assertion's is to `bus_failed`. -/
theorem onlyTheWidthAssertionFailsTheBus : Obligations.OnlyTheWidthAssertionFailsTheBus := by
  intro s t h
  obtain ⟨-, rfl⟩ | ⟨r, rest, i, -, -, -, -, he⟩ := step_cases h
  · exact ⟨id, fun h0 h1 => by simp [h0] at h1⟩
  · rcases (exec_control he).2.busFailed with kept | ⟨failed, result⟩
    · exact ⟨kept.trans, fun h0 h1 => by simp [kept, h0] at h1⟩
    · exact ⟨fun _ => failed, fun _ _ => result⟩

/-- Settles O16: the three changes of `bus_usable` name their instruction, which is what the head of the queue decodes to. -/
theorem onlyLoadAndRestoreChangeUsability : Obligations.OnlyLoadAndRestoreChangeUsability := by
  intro s t h
  obtain ⟨-, rfl⟩ | ⟨r, rest, i, hr, -, hd, -, he⟩ := step_cases h
  · exact ⟨rfl, fun h0 h1 => by simp [h0] at h1, fun h1 h0 => by simp [h1] at h0⟩
  · obtain ⟨hc, change⟩ := exec_control he
    refine ⟨hc, ?_⟩
    cases change with
    | loaded file instr usable _ _ result =>
      exact ⟨fun _ _ => ⟨r, rest, hr, .inl ⟨file, instr ▸ hd, result⟩⟩, fun _ h0 => by simp [usable] at h0⟩
    | busRestored stream n instr consumed usable _ _ result =>
      exact ⟨fun _ _ => ⟨r, rest, hr, .inr ⟨stream, n, instr ▸ hd, consumed, result⟩⟩, fun _ h0 => by simp [usable] at h0⟩
    | loadFailed file instr usable _ _ result =>
      exact ⟨fun _ h1 => by simp [usable] at h1, fun _ _ => ⟨r, rest, file, hr, instr ▸ hd, result⟩⟩
    | unchanged usable | widthAsserted _ _ _ _ usable | advanced _ _ usable | returnedToIdle usable
    | peripheralRestored usable => exact ⟨fun h0 h1 => by simp [usable, h0] at h1, fun h1 h0 => by simp [usable, h1] at h0⟩

/-- Settles O17: a transfer moves on from its row's state, which is the engine's, because the decoder chose the row by it. -/
theorem theSequencerAdvancesOrReturnsToIdle : Obligations.TheSequencerAdvancesOrReturnsToIdle := by
  intro s t h
  obtain ⟨-, rfl⟩ | ⟨r, rest, i, -, -, hd, -, he⟩ := step_cases h
  · exact .inl rfl
  · cases (exec_control he).2 with
    | advanced row selected _ _ state =>
      have hrow : row = s.transferState := by
        rcases transferRow_of_decode hd with hn | hs
        · cases hn.symm.trans selected
        · exact Option.some.inj (selected.symm.trans hs)
      exact .inr (.inl (hrow ▸ state))
    | returnedToIdle _ _ state => exact .inr (.inr (.inl state))
    | peripheralRestored _ _ result => exact .inr (.inr (.inr result))
    | unchanged _ _ state | widthAsserted _ _ _ _ _ _ state | loaded _ _ _ _ state | loadFailed _ _ _ _ state
    | busRestored _ _ _ _ _ _ state => exact .inl state

end Sys2Proof.Proofs
end

section
/-! PROOF. The statements of 20_memory.md: the address map (R50, R52), reads that leave the hardware alone (R61), and a value
written to RAM read back through a mirror (R52, R55, R64). -/

namespace Sys2Proof

/-! ## The address map (O7) -/

section AddressMap

variable {c : Config} {r : Region} {w : Window} {offset a b : Word}

theorem Config.located_iff_of_window (hw : c.window? r = some w) :
    c.located r offset a = true ↔ w.contains a = true ∧ offset = w.offsetOf a := by
  simp [Config.located, hw]

theorem Config.located_invalid_iff : c.located .invalid offset a = true ↔ c.unmapped a = true ∧ offset = a := by
  simp [Config.located, Config.window?]

/-- The chain of range checks answers a region that holds the address, under any parameters. -/
theorem Config.located_resolve (c : Config) (a : Word) : c.located (c.resolve a).1 (c.resolve a).2 a = true := by
  unfold Config.resolve
  split_ifs with hram hbios hexp2 hspu hdma
  · exact (Config.located_iff_of_window rfl).2 ⟨hram, rfl⟩
  · exact (Config.located_iff_of_window rfl).2 ⟨hbios, rfl⟩
  · exact (Config.located_iff_of_window rfl).2 ⟨hexp2, rfl⟩
  · exact (Config.located_iff_of_window rfl).2 ⟨hspu, rfl⟩
  · exact (Config.located_iff_of_window rfl).2 ⟨hdma, rfl⟩
  · exact Config.located_invalid_iff.2 ⟨by simp [Config.unmapped, hram, hbios, hexp2, hspu, hdma], rfl⟩

/-- Of two disjoint windows the first does not hold an address of the second. -/
theorem Window.not_contains_of_disjoint_right {v w : Window} (h : v.disjoint w = true) (hw : w.contains a = true) :
    v.contains a = false :=
  Window.not_contains_of_disjoint (v.disjoint_comm w ▸ h) hw

/-- An address of a window passes the checks before the window's own, because the windows are disjoint (00 R8.4). -/
theorem Config.resolve_of_contains (hc : c.wf = true) (hw : c.window? r = some w) (ha : w.contains a = true) :
    c.resolve a = (r, w.offsetOf a) := by
  obtain ⟨ramBios, ramExp2, ramSpu, ramDma, biosExp2, biosSpu, biosDma, exp2Spu, exp2Dma, spuDma⟩ := c.disjoint_of_wf hc
  have before {v : Window} (h : v.disjoint w = true) : v.contains a = false := Window.not_contains_of_disjoint_right h ha
  cases r with
  | ram => cases hw; simp [Config.resolve, ha]
  | bios => cases hw; simp [Config.resolve, ha, before ramBios]
  | exp2 => cases hw; simp [Config.resolve, ha, before ramExp2, before biosExp2]
  | spu => cases hw; simp [Config.resolve, ha, before ramSpu, before biosSpu, before exp2Spu]
  | dma => cases hw; simp [Config.resolve, ha, before ramDma, before biosDma, before exp2Dma, before spuDma]
  | invalid => cases hw

theorem Config.resolve_of_ram_contains (hc : c.wf = true) (ha : c.ram.contains a = true) :
    c.resolve a = (.ram, c.ram.offsetOf a) :=
  Config.resolve_of_contains hc (r := .ram) rfl ha

theorem Config.resolve_of_unmapped (h : c.unmapped a = true) : c.resolve a = (.invalid, a) := by
  simp only [Config.unmapped, Bool.not_eq_true', Bool.or_eq_false_iff] at h
  simp [Config.resolve, h]

theorem Config.resolve_of_located (hc : c.wf = true) (h : c.located r offset a = true) : c.resolve a = (r, offset) := by
  cases hw : c.window? r with
  | some w =>
    obtain ⟨ha, rfl⟩ := (Config.located_iff_of_window hw).1 h
    exact Config.resolve_of_contains hc hw ha
  | none =>
    cases r with
    | invalid =>
      obtain ⟨hu, rfl⟩ := Config.located_invalid_iff.1 h
      exact Config.resolve_of_unmapped hu
    | ram | bios | exp2 | spu | dma => cases hw

/-! ## The mirrors of RAM (O8) -/

theorem exists_pow_of_isPowerOfTwo {n : Nat} (h : isPowerOfTwo n = true) : ∃ k, n = 2 ^ k := by
  simp only [isPowerOfTwo, List.any_eq_true, beq_iff_eq] at h
  exact h.imp fun _ hk => hk.2

/-- 30 R92: in a window whose base is aligned to its mask, masking is the remainder of the address itself. -/
theorem Window.toNat_offsetOf (hm : isPowerOfTwo (w.mask.toNat + 1) = true) (hp : w.placed = true)
    (ha : w.contains a = true) : (w.offsetOf a).toNat = a.toNat % (w.mask.toNat + 1) := by
  obtain ⟨k, hk⟩ := exists_pow_of_isPowerOfTwo hm
  have hmask : w.mask.toNat = 2 ^ k - 1 := by omega
  have hle : w.base.toNat ≤ a.toNat := ((w.contains_iff a).1 ha).1
  simp only [Window.placed, Bool.and_eq_true, beq_iff_eq] at hp
  obtain ⟨q, hq⟩ := Nat.dvd_of_mod_eq_zero hp.1
  calc (w.offsetOf a).toNat
      = (a.toNat - w.base.toNat) &&& w.mask.toNat := by
        rw [Window.offsetOf, BitVec.toNat_and, BitVec.toNat_sub_of_le hle]
    _ = (a.toNat - w.base.toNat) % (w.mask.toNat + 1) := by rw [hmask, Nat.and_two_pow_sub_one_eq_mod, ← hmask, hk]
    _ = a.toNat % (w.mask.toNat + 1) := by rw [hq, Nat.sub_mul_mod (hq ▸ hle)]

/-- 00 R8.1 to R8.3 for RAM. -/
theorem Config.ram_of_wf (hc : c.wf = true) :
    c.ram.mask.toNat + 1 = c.ramSize ∧ isPowerOfTwo c.ramSize = true ∧ c.ram.placed = true := by
  simp only [Config.wf, Config.masksWf, Config.windowsPlaced, Bool.and_eq_true, beq_iff_eq] at hc
  tauto

theorem Config.toNat_ram_offsetOf (hc : c.wf = true) (ha : c.ram.contains a = true) :
    (c.ram.offsetOf a).toNat = a.toNat % c.ramSize := by
  obtain ⟨hmask, hpow, hplaced⟩ := c.ram_of_wf hc
  rw [Window.toNat_offsetOf (hmask ▸ hpow) hplaced ha, hmask]

/-- 20 R52: two addresses of the RAM window resolve alike exactly when they agree modulo `RAM_SIZE`. -/
theorem Config.ram_resolve_eq_iff (hc : c.wf = true) (ha : c.ram.contains a = true) (hb : c.ram.contains b = true) :
    c.resolve a = c.resolve b ↔ a.toNat ≡ b.toNat [MOD c.ramSize] := by
  rw [Config.resolve_of_ram_contains hc ha, Config.resolve_of_ram_contains hc hb, Prod.mk.injEq, ← BitVec.toNat_inj,
    Config.toNat_ram_offsetOf hc ha, Config.toNat_ram_offsetOf hc hb]
  exact and_iff_right rfl

end AddressMap

end Sys2Proof

namespace Sys2Proof.Machine

open Sys2Proof.Statements

/-! ## What a selected access runs -/

section SelectedAccess

variable (w : Width) (o : ReadOperands) (answer : Word) (s : State)

theorem exec_selectRead_ram : exec (selectRead w .ram o answer) s = readBuffer s.ram s.config.ramSize w o.offset s := by
  cases w <;> rfl

theorem exec_selectRead_bios : exec (selectRead w .bios o answer) s = readBuffer s.bios s.config.biosSize w o.offset s := by
  cases w <;> rfl

theorem exec_selectRead_exp2 : exec (selectRead w .exp2 o answer) s =
    if o.offset = exp2StatusOffset then statusRead s else invalidRead w o s := by
  rw [selectRead]
  split <;> cases w <;> rfl

theorem exec_selectRead_spu : exec (selectRead w .spu o answer) s = spuRead s := by
  rw [selectRead]
  split <;> cases w <;> rfl

theorem exec_selectRead_invalid : exec (selectRead w .invalid o answer) s = invalidRead w o s := by
  cases w <;> rfl

theorem exec_selectWrite_ram (o : WriteOperands) : exec (selectWrite w .ram o) s = ramWrite w o s := by
  cases w <;> rfl

end SelectedAccess

/-! ## Reads leave the hardware alone (O21) -/

variable {s t : State}

theorem Reports.frame (h : Reports s t) : t = { s with outputs := t.outputs, history := t.history } := by
  obtain ⟨_, _, rfl | ⟨_, rfl⟩⟩ := h <;> rfl

theorem invalidRead_reports {w : Width} {o : ReadOperands} (h : invalidRead w o s = .next t) : Reports s t := by
  obtain ⟨-, -, rfl⟩ := invalidRead_next h
  exact ⟨_, _, .inr ⟨_, rfl⟩⟩

theorem readBuffer_reports {m : Memory} {size : Nat} {w : Width} {offset : Word}
    (h : readBuffer m size w offset s = .next t) : Reports s t := by
  obtain ⟨-, -, -, rfl⟩ := readBuffer_next h
  exact ⟨_, _, .inl rfl⟩

/-- Every completed read adds its result, and at most a log or a call, by the region it is of (20 R61). -/
theorem exec_selectRead_reports {w : Width} {r : Region} {o : ReadOperands} {answer : Word}
    (hdma : r = .dma → w = .word) (h : exec (selectRead w r o answer) s = .next t) : Reports s t := by
  cases r with
  | ram => exact readBuffer_reports (exec_selectRead_ram w o answer s ▸ h)
  | bios => exact readBuffer_reports (exec_selectRead_bios w o answer s ▸ h)
  | exp2 =>
    rw [exec_selectRead_exp2] at h
    split at h
    · obtain ⟨-, -, rfl⟩ := statusRead_next h
      exact ⟨_, _, .inl rfl⟩
    · exact invalidRead_reports h
  | spu =>
    obtain ⟨-, -, rfl⟩ := spuRead_next (exec_selectRead_spu w o answer s ▸ h)
    exact ⟨_, _, .inl rfl⟩
  | dma =>
    obtain rfl := hdma rfl
    obtain ⟨-, -, rfl⟩ := execRdDmaW_next h
    exact ⟨_, _, .inr ⟨_, rfl⟩⟩
  | invalid => exact invalidRead_reports (exec_selectRead_invalid w o answer s ▸ h)

/-! ## A RAM access over the bus (O26) -/

theorem decode_busReadRequest (c : Config) (ts : TransferState) (w : Width) (cpu a answer : Word) :
    decode c ts (busReadRequest w cpu a answer) =
      .ok (selectRead w (c.resolve a).1 ⟨(c.resolve a).2, cpu, a⟩ answer) := by
  simp [decode, busReadRequest, decodeTxn, decodeAccess, Except.map, Selector.instr]

theorem decode_busWriteRequest (c : Config) (ts : TransferState) (w : Width) (cpu a v : Word) :
    decode c ts (busWriteRequest w cpu a v) = .ok (selectWrite w (c.resolve a).1 ⟨(c.resolve a).2, cpu, a, v⟩) := by
  simp [decode, busWriteRequest, decodeTxn, decodeAccess, Except.map, Selector.instr]

/-- A step is the decoded instruction, run on the state without its request. -/
theorem step_decoded {r : Request} {rest : List Request} {i : Instr} (hw : s.config.wf = true)
    (hr : s.requests = r :: rest) (hd : decode s.config s.transferState r = .ok i) :
    step s = exec i { s with requests := rest } :=
  Proofs.aStepRunsTheDecodedInstruction s r rest i hw hr hd

theorem step_busReadRequest_ram {rest : List Request} {w : Width} {cpu a answer : Word} (hw : s.config.wf = true)
    (hready : Ready s) (ha : s.config.ram.contains a = true)
    (hb : a.toNat % s.config.ramSize + w.bytes ≤ s.config.ramSize)
    (hr : s.requests = busReadRequest w cpu a answer :: rest) :
    step s = .next (({ s with requests := rest } : State).emit
      (.read true (BitVec.ofNat 32 (s.ram.loadLE (a.toNat % s.config.ramSize) w.bytes))) none) := by
  rw [← Config.toNat_ram_offsetOf hw ha] at hb ⊢
  rw [step_decoded hw hr (decode_busReadRequest ..), Config.resolve_of_ram_contains hw ha, exec_selectRead_ram]
  exact readBuffer_ready s.ram hready.1 hready.2 hb

theorem step_busWriteRequest_ram {rest : List Request} {w : Width} {cpu a v : Word} (hw : s.config.wf = true)
    (hready : Ready s) (ha : s.config.ram.contains a = true)
    (hb : a.toNat % s.config.ramSize + w.bytes ≤ s.config.ramSize)
    (hr : s.requests = busWriteRequest w cpu a v :: rest) :
    step s = .next (({ s with
      requests := rest
      ram := s.ram.storeLE (a.toNat % s.config.ramSize) v w.bytes } : State).emit (.write true) none) := by
  rw [← Config.toNat_ram_offsetOf hw ha] at hb ⊢
  rw [step_decoded hw hr (decode_busWriteRequest ..), Config.resolve_of_ram_contains hw ha, exec_selectWrite_ram]
  exact ramWrite_ready hready.1 hready.2 hb

theorem run_succ_of_step (k : Nat) (h : step s = .next t) : Host.Core.run core (k + 1) s = Host.Core.run core k t := by
  have hs : core.step s = .next t := h
  simp only [Host.Core.run, hs]

/-- The bytes stored are loaded back as the value's low bits, zero-extended (20 R55, R59). -/
theorem ofNat_loadLE_storeLE (m : Memory) (o : Nat) (v : Word) (w : Width) :
    BitVec.ofNat 32 ((m.storeLE o v w.bytes).loadLE o w.bytes) = truncTo w v := by
  rw [Memory.loadLE_storeLE_same]
  exact BitVec.eq_of_toNat_eq (by simp [truncTo, Width.bits])

end Sys2Proof.Machine

namespace Sys2Proof.Proofs

open Sys2Proof.Machine Sys2Proof.Statements

/-- Settles O7: what the chain answers holds the address, and disjointness makes it the only one that does. -/
theorem theOrderOfTheRegionChecksCannotBeObserved : Obligations.TheOrderOfTheRegionChecksCannotBeObserved := by
  intro c a hc r offset
  constructor
  · intro h
    simpa [h] using c.located_resolve a
  · exact Config.resolve_of_located hc

/-- Settles O8: resolving alike is agreeing modulo `RAM_SIZE`, which for ordered addresses is a multiple between them. -/
theorem ramMirrorsNameOneByte : Obligations.RamMirrorsNameOneByte := by
  intro c a b hc ha hb
  rw [Config.ram_resolve_eq_iff hc ha hb]
  constructor
  · rintro ⟨k, hk⟩
    exact ⟨by omega, by simp [Nat.ModEq, hk]⟩
  · rintro ⟨hle, hmod⟩
    obtain ⟨k, hk⟩ := (Nat.modEq_iff_dvd' hle).1 hmod
    exact ⟨k, by rw [Nat.mul_comm, ← hk, Nat.add_sub_cancel' hle]⟩

/-- Settles O21: a completed read only reports. -/
theorem noReadChangesTheHardware : Obligations.NoReadChangesTheHardware := by
  rintro _ s t o ⟨w, r, a, rfl, hdma⟩ h
  exact (exec_selectRead_reports hdma h).frame

/-- Settles O26: the read meets the bytes that the write has just stored, because both addresses have one offset. -/
theorem aWriteIsReadBackThroughEveryMirror : Obligations.AWriteIsReadBackThroughEveryMirror := by
  intro s rest w a b v cpu cpu' answer hw hready ha hb hmirror hbound hr
  have written := step_busWriteRequest_ram hw hready ha hbound hr
  refine ⟨_, (run_succ_of_step 1 written).trans
    (run_succ_of_step 0 (step_busReadRequest_ram hw hready hb (hmirror ▸ hbound) rfl)), rfl, ?_⟩
  simp [← hmirror, ofNat_loadLE_storeLE]

end Sys2Proof.Proofs
end

section
/-! PROOF. The statements of 30_encoding.md: the row of a transfer is selected on state and input (R90), reserved words are refused
(R88, R96, R98), and the offset is the masked address (R92). -/

namespace Sys2Proof

/-! ## The unused bits of a command -/

section Unused

variable {n : Nat} (i : Instr)

@[simp] theorem whenZero_zero : whenZero (0 : BitVec n) i = .ok i := if_pos rfl

theorem whenZero_of_ne_zero {unused : BitVec n} (h : unused ≠ 0) : whenZero unused i = .error .nonzeroUnusedBits := if_neg h

end Unused

/-! ## What a `PCMD` or `HCMD` word decodes to, by its command (30 R84, R86, R98) -/

section Commands

variable {c : Config} {t : TransferState} {p : BitVec 16} {word : BitVec 8} {file : FileAnswer} {stream : Bytes}
  {pointer : Position}

theorem decodePcmd_xfer (hcmd : p.extractLsb' 12 4 = 0) : decodePcmd c t p stream pointer =
    whenZero (p.extractLsb' 8 4) (selectTransfer t (p.extractLsb' 0 8) pointer) := by
  rw [decodePcmd, hcmd]; rfl

theorem decodePcmd_setbtn (hcmd : p.extractLsb' 12 4 = 2) : decodePcmd c t p stream pointer =
    if (p.extractLsb' 0 8).toNat < c.buttonCount then
      whenZero (p.extractLsb' 9 3) (.setbtn (p.extractLsb' 0 8) (p.getLsbD 8))
    else .error .noSuchButton := by
  rw [decodePcmd, hcmd]; rfl

theorem decodePcmd_setbtnc (hcmd : p.extractLsb' 12 4 = 3) : decodePcmd c t p stream pointer =
    whenZero (p.extractLsb' 9 3) (.setbtnc (p.extractLsb' 0 8) (p.getLsbD 8)) := by
  rw [decodePcmd, hcmd]; rfl

theorem decodePcmd_pload (hcmd : p.extractLsb' 12 4 = 5) : decodePcmd c t p stream pointer =
    whenZero (p.extractLsb' 1 11) (.pload (p.getLsbD 0) stream) := by
  rw [decodePcmd, hcmd]; rfl

/-- `PRESET`, `PSAVE`, `GETTYPE` and `GETVMC` use no bit of `arg`. -/
theorem decodePcmd_argless (hcmd : p.extractLsb' 12 4 ∈ [(1 : BitVec 4), 4, 6, 7]) :
    ∃ i, decodePcmd c t p stream pointer = whenZero (p.extractLsb' 0 12) i := by
  simp only [List.mem_cons, List.not_mem_nil, or_false] at hcmd
  unfold decodePcmd
  rcases hcmd with h1 | h4 | h6 | h7
  · rw [h1]; exact ⟨.preset, rfl⟩
  · rw [h4]; exact ⟨.psave, rfl⟩
  · rw [h6]; exact ⟨.gettype, rfl⟩
  · rw [h7]; exact ⟨.getvmc, rfl⟩

/-- Unused bits of a button command are refused, unless the identity was before. -/
theorem decodePcmd_button_unused (hcmd : p.extractLsb' 12 4 ∈ [(2 : BitVec 4), 3]) (hunused : p.extractLsb' 9 3 ≠ 0) :
    ∃ e, decodePcmd c t p stream pointer = .error e := by
  simp only [List.mem_cons, List.not_mem_nil, or_false] at hcmd
  rcases hcmd with hsetbtn | hsetbtnc
  · rw [decodePcmd_setbtn hsetbtn]
    split
    · exact ⟨_, whenZero_of_ne_zero _ hunused⟩
    · exact ⟨_, rfl⟩
  · exact ⟨_, (decodePcmd_setbtnc hsetbtnc).trans (whenZero_of_ne_zero _ hunused)⟩

theorem decodePcmd_reserved (hcmd : 8 ≤ (p.extractLsb' 12 4).toNat) :
    decodePcmd c t p stream pointer = .error .reservedCommand := by
  unfold decodePcmd
  split
  case h_9 => rfl
  all_goals omega

/-- The host commands use no bit of their low nibble. -/
theorem decodeHcmd_defined (hcmd : (word.extractLsb' 4 4).toNat < 3) :
    ∃ i, decodeHcmd word file stream = whenZero (word.extractLsb' 0 4) i := by
  unfold decodeHcmd
  obtain h0 | h1 | h2 :
      (word.extractLsb' 4 4).toNat = 0 ∨ (word.extractLsb' 4 4).toNat = 1 ∨ (word.extractLsb' 4 4).toNat = 2 := by omega
  · rw [h0]; exact ⟨.loadbios file, rfl⟩
  · rw [h1]; exact ⟨.bsave, rfl⟩
  · rw [h2]; exact ⟨.bload stream, rfl⟩

theorem decodeHcmd_reserved (hcmd : 3 ≤ (word.extractLsb' 4 4).toNat) :
    decodeHcmd word file stream = .error .reservedCommand := by
  unfold decodeHcmd
  split
  case h_4 => rfl
  all_goals omega

/-! ## A transfer (O5) -/

/-- An input byte as a `PCMD` word: command 0, and the four unused bits zero. -/
theorem setWidth_eq_pcmdWord (input : Byte) : input.setWidth 16 = pcmdWord 0 ((0 : BitVec 4) ++ input) := by
  apply BitVec.eq_of_toNat_eq
  rw [BitVec.toNat_setWidth_of_le (by decide), pcmdWord, BitVec.toNat_append, BitVec.toNat_append]
  simp

theorem decodePcmd_transfer (input : Byte) :
    decodePcmd c t (pcmdWord 0 ((0 : BitVec 4) ++ input)) stream pointer = .ok (selectTransfer t input pointer) := by
  have hunused : (pcmdWord 0 ((0 : BitVec 4) ++ input)).extractLsb' 8 4 = 0 :=
    (pcmdWord_argPart _ _ (by decide)).trans (append_high _ _)
  have hinput : (pcmdWord 0 ((0 : BitVec 4) ++ input)).extractLsb' 0 8 = input :=
    (pcmdWord_argPart _ _ (by decide)).trans (append_low _ _)
  rw [decodePcmd_xfer (pcmdWord_cmd _ _), hunused, hinput, whenZero_zero]

end Commands

/-! ## Refused transactions (O6) -/

section Transactions

variable {c : Config} {t : TransferState} {word : BitVec 72} {cpu answer : Word} {dir width : BitVec 4} {e : DecodeError}

theorem Direction.ofCode_reserved (h : 1 < dir.toNat) : Direction.ofCode dir = none := by
  unfold Direction.ofCode
  split
  case h_3 => rfl
  all_goals omega

theorem Width.ofCode_reserved (h : 2 < width.toNat) : Width.ofCode width = none := by
  unfold Width.ofCode
  split
  case h_4 => rfl
  all_goals omega

theorem decodeAccess_reservedDirection (h : 1 < dir.toNat) : decodeAccess dir width = .error .reservedDirection := by
  rw [decodeAccess, Direction.ofCode_reserved h]

/-- A reserved width is refused, under a reserved direction for the direction's sake. -/
theorem decodeAccess_reservedWidth (h : 2 < width.toNat) : ∃ e, decodeAccess dir width = .error e := by
  rw [decodeAccess, Width.ofCode_reserved h]
  cases Direction.ofCode dir with
  | none => exact ⟨.reservedDirection, rfl⟩
  | some => exact ⟨.reservedWidth, rfl⟩

theorem decodeTxn_of_decodeAccess_error (h : decodeAccess (word.extractLsb' 68 4) (word.extractLsb' 64 4) = .error e) :
    decodeTxn c word = .error e := by
  rw [decodeTxn, h]

theorem decode_txn_of_error (h : decodeTxn c word = .error e) : decode c t (.txn word cpu answer) = .error e := by
  rw [decode, h]; rfl

/-- 30 R88: a read that carries data is refused, if not before for its width. -/
theorem decodeTxn_readWithData (hdir : word.extractLsb' 68 4 = 0) (hdata : word.extractLsb' 0 32 ≠ 0) :
    ∃ e, decodeTxn c word = .error e := by
  rw [decodeTxn, decodeAccess, hdir]
  cases Width.ofCode (word.extractLsb' 64 4) with
  | none => exact ⟨.reservedWidth, rfl⟩
  | some w => exact ⟨.readWithData, if_pos ⟨rfl, hdata⟩⟩

end Transactions

/-! ## The masked offset (O9) -/

section Offset

variable {c : Config} {r : Region} {w : Window} {a : Word}

/-- 00 R8.1 to R8.3 for every window. -/
theorem Config.window_of_wf (hc : c.wf = true) (hw : c.window? r = some w) :
    isPowerOfTwo (w.mask.toNat + 1) = true ∧ w.placed = true := by
  simp only [Config.wf, Config.masksWf, Config.windowsPlaced, Bool.and_eq_true, beq_iff_eq] at hc
  cases r with
  | ram | bios | exp2 | spu | dma => cases hw; simp [hc]
  | invalid => cases hw

/-- 00 R8.5 and R8.6: outside RAM the window is no larger than the range of its mask. -/
theorem Config.window_size_le (hc : c.wf = true) (hw : c.window? r = some w) (hr : r ≠ .ram) :
    w.size ≤ w.mask.toNat + 1 := by
  simp only [Config.wf, Config.masksWf, Config.windowSizesWf, Bool.and_eq_true, beq_iff_eq, decide_eq_true_eq] at hc
  cases r with
  | ram => exact absurd rfl hr
  | bios | exp2 | spu | dma => cases hw; simp [hc]
  | invalid => cases hw

/-- A mask one below a power of two is the remainder modulo that power. -/
theorem toNat_and_mask {mask : Word} (hm : isPowerOfTwo (mask.toNat + 1) = true) (a : Word) :
    (a &&& mask).toNat = a.toNat % (mask.toNat + 1) := by
  obtain ⟨k, hk⟩ := exists_pow_of_isPowerOfTwo hm
  rw [BitVec.toNat_and, hk, ← Nat.and_two_pow_sub_one_eq_mod, ← hk, Nat.add_sub_cancel]

/-- 30 R92: where the window is no larger than the range of its mask, masking the distance from the base changes nothing. -/
theorem Window.offsetOf_eq_sub (hm : isPowerOfTwo (w.mask.toNat + 1) = true) (hsize : w.size ≤ w.mask.toNat + 1)
    (ha : w.contains a = true) : w.offsetOf a = a - w.base := by
  obtain ⟨hle, hlt⟩ := (w.contains_iff a).1 ha
  apply BitVec.eq_of_toNat_eq
  rw [Window.offsetOf, toNat_and_mask hm, BitVec.toNat_sub_of_le hle, Nat.mod_eq_of_lt (by omega)]

theorem Config.ramSize_pos (hc : c.wf = true) : 0 < c.ramSize := by
  obtain ⟨hmask, -, -⟩ := c.ram_of_wf hc
  omega

end Offset

end Sys2Proof

namespace Sys2Proof.Proofs

/-- Settles O5: both words carry the input byte, and the state the `XSEL` word adds is the engine's. -/
theorem aTransferIsSelectedByStateAndInput : Obligations.ATransferIsSelectedByStateAndInput := by
  intro c t input stream pointer
  calc decode c t (.pcmd (input.setWidth 16) stream pointer)
      = decodePcmd c t (pcmdWord 0 ((0 : BitVec 4) ++ input)) stream pointer := by rw [setWidth_eq_pcmdWord]; rfl
    _ = .ok (selectTransfer t input pointer) := decodePcmd_transfer input
    _ = decodeXsel (BitVec.ofNat 4 t.code ++ input) pointer := (decodeXsel_word t input pointer).symm

/-- Settles O6: each clause is the refusing branch of its format's decoder. -/
theorem reservedWordsAreRefused : Obligations.ReservedWordsAreRefused := by
  refine ⟨?direction, ?width, ?readWithData, ?command, ?argless, ?xfer, ?button, ?pload, ?identity, ?hostCommand,
    ?hostUnused⟩
  case direction =>
    intro c t word cpu answer hdir
    exact ⟨_, decode_txn_of_error (decodeTxn_of_decodeAccess_error (decodeAccess_reservedDirection hdir))⟩
  case width =>
    intro c t word cpu answer hwidth
    obtain ⟨e, he⟩ := decodeAccess_reservedWidth hwidth
    exact ⟨e, decode_txn_of_error (decodeTxn_of_decodeAccess_error he)⟩
  case readWithData =>
    intro c t word cpu answer hdir hdata
    obtain ⟨e, he⟩ := decodeTxn_readWithData hdir hdata
    exact ⟨e, decode_txn_of_error he⟩
  case command =>
    intro c t word stream pointer hcmd
    exact decodePcmd_reserved hcmd
  case argless =>
    intro c t word stream pointer hcmd hunused
    obtain ⟨i, hi⟩ := decodePcmd_argless hcmd
    exact hi.trans (whenZero_of_ne_zero i hunused)
  case xfer =>
    intro c t word stream pointer hcmd hunused
    exact (decodePcmd_xfer hcmd).trans (whenZero_of_ne_zero _ hunused)
  case button =>
    intro c t word stream pointer hcmd hunused
    exact decodePcmd_button_unused hcmd hunused
  case pload =>
    intro c t word stream pointer hcmd hunused
    exact (decodePcmd_pload hcmd).trans (whenZero_of_ne_zero _ hunused)
  case identity =>
    intro c t word stream pointer hcmd hcount
    exact (decodePcmd_setbtn hcmd).trans (if_neg hcount.not_gt)
  case hostCommand =>
    intro c t word file stream hcmd
    exact decodeHcmd_reserved hcmd
  case hostUnused =>
    intro c t word file stream hcmd hunused
    obtain ⟨i, hi⟩ := decodeHcmd_defined hcmd
    exact hi.trans (whenZero_of_ne_zero i hunused)

/-- Settles O9: the base is a multiple of the mask's range, and outside RAM the window lies within one such range. -/
theorem theOffsetIsTheMaskedAddress : Obligations.TheOffsetIsTheMaskedAddress := by
  intro c a r w hc hw ha
  obtain ⟨hmask, hplaced⟩ := Config.window_of_wf hc hw
  refine ⟨?masked, ?inBuffer, ?unmasked⟩
  case masked =>
    apply BitVec.eq_of_toNat_eq
    rw [Window.toNat_offsetOf hmask hplaced ha, toNat_and_mask hmask]
  case inBuffer =>
    rintro rfl
    cases hw
    rw [Config.toNat_ram_offsetOf hc ha]
    exact Nat.mod_lt _ (Config.ramSize_pos hc)
  case unmasked =>
    intro hr
    exact Window.offsetOf_eq_sub hmask (Config.window_size_le hc hw hr) ha

end Sys2Proof.Proofs
end

section
/-! PROOF. The statements of 40_bus_ram_bios.md: which `SEL` words select the accesses to RAM and to the BIOS image, the value that
a read returns (R110, R114), and the bytes that a write stores (R112, R116). -/

namespace Sys2Proof

open Sys2Proof.Statements

/-! ## The words of a row -/

section Rows

variable (d : Direction) (w : Width) (r : Region)

/-- The `SEL` word of a direction, a width and a region at offset 0 (30 R83). -/
def rowPattern : BitVec 44 := BitVec.ofNat 44 ((d.code ++ w.code ++ r.code).toNat * 2 ^ 32)

/-- A row's pattern plus an offset decodes to the operation of that selector (30 R83, R89). -/
theorem decode_rowPattern_add (offset : Word) (c : Config) (t : TransferState) (cpu bus wdata answer : Word) :
    decode c t (.sel (rowPattern d w r + offset.setWidth 44) cpu bus wdata answer) =
      .ok ((⟨d, w, r, offset⟩ : Selector).instr cpu bus wdata answer) := by
  rw [rowPattern, ← Selector.word_eq_add ⟨d, w, r, offset⟩, decode, decodeSel_word]
  rfl

variable {pattern : BitVec 44} {offset : Word}

theorem selectsRead_of_rowPattern {i : ReadOperands → Instr} (hp : pattern = rowPattern .read w r)
    (hi : ∀ cpu bus answer, selectRead w r ⟨offset, cpu, bus⟩ answer = i ⟨offset, cpu, bus⟩) :
    SelectsRead pattern offset i := by
  intro c t cpu bus wdata answer
  rw [hp, decode_rowPattern_add, ← hi cpu bus answer]
  rfl

theorem selectsWrite_of_rowPattern {i : WriteOperands → Instr} (hp : pattern = rowPattern .write w r)
    (hi : ∀ cpu bus wdata, selectWrite w r ⟨offset, cpu, bus, wdata⟩ = i ⟨offset, cpu, bus, wdata⟩) :
    SelectsWrite pattern offset i := by
  intro c t cpu bus wdata answer
  rw [hp, decode_rowPattern_add, ← hi cpu bus wdata]
  rfl

end Rows

theorem Width.bytes_le_four (w : Width) : w.bytes ≤ 4 := by cases w <;> decide

end Sys2Proof

namespace Sys2Proof.Machine

open Sys2Proof.Statements

/-! ## The value of a read and the bytes of a store -/

theorem Memory.loadLE_eq_valueAt (m : Memory) (o n : Nat) : m.loadLE o n = valueAt m o n := by
  induction n with
  | zero => rfl
  | succ n ih =>
    have hpow : 2 ^ (8 * n) = 256 ^ n := pow_mul 2 8 n
    rw [Memory.loadLE, ih, valueAt, valueAt, Finset.sum_range_succ, hpow]

/-- The bytes of an access fit the 32-bit carrier, which zero-extends them (40 R110). -/
theorem toNat_ofNat_loadLE (m : Memory) (o : Nat) (w : Width) :
    (BitVec.ofNat 32 (m.loadLE o w.bytes)).toNat = valueAt m o w.bytes := by
  have hw := w.bytes_le_four
  have fits : m.loadLE o w.bytes < 2 ^ 32 :=
    (m.loadLE_lt o w.bytes).trans_le (Nat.pow_le_pow_right (by decide) (by omega))
  rw [BitVec.toNat_ofNat, Nat.mod_eq_of_lt fits, Memory.loadLE_eq_valueAt]

theorem Memory.stored_storeLE (m : Memory) (o n : Nat) (v : Word) : Stored m (m.storeLE o v n) o n v := by
  constructor
  · intro k hk
    rw [Memory.read_storeLE, if_pos (by omega), Nat.add_sub_cancel_left]
  · intro a ha
    rw [Memory.read_storeLE, if_neg (by omega)]

/-! ## The accesses at every width -/

theorem exec_selectWrite_bios (w : Width) (o : WriteOperands) (s : State) :
    exec (selectWrite w .bios o) s = biosWrite w o s := by
  cases w <;> rfl

section Accesses

variable {s : State} (hs : Ready s) (w : Width)
include hs

theorem readsBytes_of_exec_eq_readBuffer {m : Memory} {size : Nat} {offset : Word} {i : Instr}
    (hi : exec i s = readBuffer m size w offset s) : ReadsBytes m size i offset.toNat w.bytes s := by
  constructor
  · intro hb
    exact ⟨_, toNat_ofNat_loadLE m offset.toNat w, hi.trans (readBuffer_ready m hs.1 hs.2 hb)⟩
  · intro hb
    exact hi.trans (readBuffer_overrun m hs.1 hs.2 hb)

theorem selectRead_ram_readsBytes (o : ReadOperands) (answer : Word) :
    ReadsBytes s.ram s.config.ramSize (selectRead w .ram o answer) o.offset.toNat w.bytes s :=
  readsBytes_of_exec_eq_readBuffer hs w (exec_selectRead_ram w o answer s)

theorem selectRead_bios_readsBytes (o : ReadOperands) (answer : Word) :
    ReadsBytes s.bios s.config.biosSize (selectRead w .bios o answer) o.offset.toNat w.bytes s :=
  readsBytes_of_exec_eq_readBuffer hs w (exec_selectRead_bios w o answer s)

theorem selectWrite_ram_storesRam (o : WriteOperands) :
    StoresRam (selectWrite w .ram o) o.offset.toNat w.bytes o.wdata s := by
  rw [StoresRam, exec_selectWrite_ram]
  constructor
  · intro hb
    exact ⟨_, s.ram.stored_storeLE o.offset.toNat w.bytes o.wdata, ramWrite_ready hs.1 hs.2 hb⟩
  · exact ramWrite_overrun hs.1 hs.2

theorem selectWrite_bios_storesBios (o : WriteOperands) :
    StoresBios (selectWrite w .bios o) o.offset.toNat w.bytes o.wdata s := by
  rw [StoresBios, exec_selectWrite_bios]
  refine ⟨?ignored, ?stored, ?overrun⟩
  case ignored => exact biosWrite_ignored w o hs.1 hs.2
  case stored =>
    intro hp hb
    exact ⟨_, s.bios.stored_storeLE o.offset.toNat w.bytes o.wdata, biosWrite_stored hs.1 hs.2 hp hb⟩
  case overrun => exact biosWrite_overrun hs.1 hs.2

end Accesses

end Sys2Proof.Machine

namespace Sys2Proof.Proofs

open Sys2Proof.Machine Sys2Proof.Statements

/-- Settles O22: the carrier is the little-endian sum of the bytes, which fits 32 bits at every width. -/
theorem ramReadsReturnTheAddressedBytes : Obligations.RamReadsReturnTheAddressedBytes := by
  constructor
  · intro f
    exact ⟨selectsRead_of_rowPattern .byte .ram rfl fun _ _ _ => rfl,
      selectsRead_of_rowPattern .halfWord .ram rfl fun _ _ _ => rfl,
      selectsRead_of_rowPattern .word .ram rfl fun _ _ _ => rfl⟩
  · intro s o hs
    exact ⟨selectRead_ram_readsBytes hs .byte o 0, selectRead_ram_readsBytes hs .halfWord o 0,
      selectRead_ram_readsBytes hs .word o 0⟩

/-- Settles O23: a store changes what exactly its bytes read as. -/
theorem ramWritesStoreExactlyTheirBytes : Obligations.RamWritesStoreExactlyTheirBytes := by
  constructor
  · intro f
    exact ⟨selectsWrite_of_rowPattern .byte .ram rfl fun _ _ _ => rfl,
      selectsWrite_of_rowPattern .halfWord .ram rfl fun _ _ _ => rfl,
      selectsWrite_of_rowPattern .word .ram rfl fun _ _ _ => rfl⟩
  · intro s o hs
    exact ⟨selectWrite_ram_storesRam hs .byte o, selectWrite_ram_storesRam hs .halfWord o,
      selectWrite_ram_storesRam hs .word o⟩

/-- Settles O24: the reads of the image are those of RAM on the other buffer. -/
theorem biosReadsReturnTheAddressedBytes : Obligations.BiosReadsReturnTheAddressedBytes := by
  constructor
  · intro f
    exact ⟨selectsRead_of_rowPattern .byte .bios rfl fun _ _ _ => rfl,
      selectsRead_of_rowPattern .halfWord .bios rfl fun _ _ _ => rfl,
      selectsRead_of_rowPattern .word .bios rfl fun _ _ _ => rfl⟩
  · intro s o hs
    exact ⟨selectRead_bios_readsBytes hs .byte o 0, selectRead_bios_readsBytes hs .halfWord o 0,
      selectRead_bios_readsBytes hs .word o 0⟩

/-- Settles O25: `ignore` completes before the bounds are looked at; `store` is the store of RAM on the image. -/
theorem biosWritesFollowThePolicy : Obligations.BiosWritesFollowThePolicy := by
  constructor
  · intro f
    exact ⟨selectsWrite_of_rowPattern .byte .bios rfl fun _ _ _ => rfl,
      selectsWrite_of_rowPattern .halfWord .bios rfl fun _ _ _ => rfl,
      selectsWrite_of_rowPattern .word .bios rfl fun _ _ _ => rfl⟩
  · intro s o hs
    exact ⟨selectWrite_bios_storesBios hs .byte o, selectWrite_bios_storesBios hs .halfWord o,
      selectWrite_bios_storesBios hs .word o⟩

end Sys2Proof.Proofs
end

section
/-! PROOF. The statements of 41_bus_exp2.md: the status register (R131), the TTY (R133) and a line written to it over the bus, the
POST code (R135), and the fallback of every other access to the window (R138, R139). -/

namespace Sys2Proof

/-! ## The registers of Expansion Region 2 -/

section Registers

variable {c : Config} {offset : Word}

/-- 00 R8.3 and R8.6: the documented offsets, of which the POST register's is the last, stand inside the window and below 2^32. -/
theorem Config.exp2_contains_register (hc : c.wf = true) (ho : offset ≤ exp2PostOffset) :
    c.exp2.contains (c.exp2.base + offset) = true := by
  have hplaced := (Config.window_of_wf hc (r := .exp2) rfl).2
  simp only [Window.placed, Bool.and_eq_true, decide_eq_true_eq] at hplaced
  simp only [Config.wf, Config.windowSizesWf, Bool.and_eq_true, decide_eq_true_eq] at hc
  have hpost : exp2PostOffset.toNat < c.exp2.size := by tauto
  have hle : offset.toNat ≤ exp2PostOffset.toNat := BitVec.le_def.1 ho
  have hsum : (c.exp2.base + offset).toNat = c.exp2.base.toNat + offset.toNat := BitVec.toNat_add_of_lt (by omega)
  rw [Window.contains_iff]
  omega

theorem Config.resolve_exp2_register (hc : c.wf = true) (ho : offset ≤ exp2PostOffset) :
    c.resolve (c.exp2.base + offset) = (.exp2, offset) := by
  have hw : c.window? .exp2 = some c.exp2 := rfl
  have hin := c.exp2_contains_register hc ho
  have hsub : c.exp2.base + offset - c.exp2.base = offset := by rw [BitVec.add_comm, BitVec.add_sub_cancel]
  rw [Config.resolve_of_contains hc hw hin,
    Window.offsetOf_eq_sub (Config.window_of_wf hc hw).1 (Config.window_size_le hc hw (by decide)) hin, hsub]

end Registers

/-- The character of a TTY write is the byte that `TTYPUTS` puts on the carrier (30 R103). -/
theorem ttyChar_truncTo_byte (ch : Byte) : ttyChar (truncTo .byte (ch.setWidth 32)) = ch := by
  apply BitVec.eq_of_toNat_eq
  simpa [ttyChar, truncTo, Width.bits, Width.bytes] using ch.isLt

end Sys2Proof

namespace Sys2Proof.Machine

open Sys2Proof.Statements

theorem exec_selectWrite_exp2 (w : Width) (o : WriteOperands) (s : State) : exec (selectWrite w .exp2 o) s =
    if o.offset = exp2TtyOffset then ttyWrite o s
    else if o.offset = exp2PostOffset then postWrite o s else invalidWrite w o s := by
  rw [selectWrite]
  split
  · cases w <;> rfl
  · split <;> cases w <;> rfl

/-! ## The meanings at every width (41 R130) -/

section Meanings

variable {s : State} {i : Instr}

theorem exec_of_mem_statusReads {o : ReadOperands} (hi : i ∈ [Instr.rdExp2StatusB o, .rdExp2StatusH o, .rdExp2StatusW o]) :
    exec i s = statusRead s := by
  simp only [List.mem_cons, List.not_mem_nil, or_false] at hi
  obtain rfl | rfl | rfl := hi <;> rfl

theorem exec_of_mem_postWrites {o : WriteOperands} (hi : i ∈ [Instr.wrExp2PostB o, .wrExp2PostH o, .wrExp2PostW o]) :
    exec i s = postWrite o s := by
  simp only [List.mem_cons, List.not_mem_nil, or_false] at hi
  obtain rfl | rfl | rfl := hi <;> rfl

theorem ttyFlush_logs (h : s.ttyLineBuffer ≠ [] ∨ s.config.ttyFlushEmpty = true) :
    ttyFlush s = { s.record (.logTty s.ttyLineBuffer) with ttyLineBuffer := [] } := by
  obtain ⟨-, hflush⟩ | ⟨hempty, hoff, -⟩ := ttyFlush_cases s
  · exact hflush
  · simp [hempty, hoff] at h

theorem ttyFlush_silent (hempty : s.ttyLineBuffer = []) (hoff : s.config.ttyFlushEmpty = false) : ttyFlush s = s := by
  obtain ⟨h, -⟩ | ⟨-, -, hflush⟩ := ttyFlush_cases s
  · simp [hempty, hoff] at h
  · exact hflush

variable (hs : Ready s)
include hs

theorem ttyWrite_lf_logs {o : WriteOperands} (hlf : ttyChar o.wdata = ttyLf)
    (hlog : s.ttyLineBuffer ≠ [] ∨ s.config.ttyFlushEmpty = true) :
    ttyWrite o s = .next (({ s.record (.logTty s.ttyLineBuffer) with ttyLineBuffer := [] } : State).emit (.write true) none) := by
  rw [ttyWrite_lf hs.1 hs.2 hlf, ttyFlush_logs hlog]

theorem writesTty_of_exec_eq_ttyWrite {o : WriteOperands} (hi : exec i s = ttyWrite o s) : WritesTty i o.wdata s := by
  rw [WritesTty, hi]
  refine ⟨?cr, ?logged, ?silent, ?append⟩
  case cr => exact ttyWrite_cr hs.1 hs.2
  case logged => exact ttyWrite_lf_logs hs
  case silent =>
    intro hlf hempty hoff
    rw [ttyWrite_lf hs.1 hs.2 hlf, ttyFlush_silent hempty hoff]
    rfl
  case append =>
    intro hcr hlf hroom
    exact ttyWrite_append hs.1 hs.2 hcr hlf ((ttyHasRoom_iff s).2 hroom)

theorem readsInvalid_of_exec_eq_invalidRead {w : Width} {o : ReadOperands} (hi : exec i s = invalidRead w o s) :
    ReadsInvalid i w o s :=
  hi.trans (invalidRead_ready w o hs.1 hs.2)

theorem writesInvalid_of_exec_eq_invalidWrite {w : Width} {o : WriteOperands} (hi : exec i s = invalidWrite w o s) :
    WritesInvalid i w o s :=
  hi.trans (invalidWrite_ready w o hs.1 hs.2)

end Meanings

/-! ## A line over the bus (O30) -/

/-- The state once the bytes of a line without line feeds have been written to an unbounded buffer and `rest` is left to run: the
bytes but for the carriage returns are in the buffer, and every write has answered (41 R133). -/
def afterLine (line : List Byte) (rest : List Request) (s : State) : State :=
  { s with
    requests := rest
    ttyLineBuffer := s.ttyLineBuffer ++ line.filter (· ≠ ttyCr)
    outputs := s.outputs ++ List.replicate line.length ⟨.write true, none⟩ }

theorem afterLine_nil (s : State) : afterLine [] s.requests s = s := by simp [afterLine]

theorem afterLine_cons (ch : Byte) (line : List Byte) (between rest : List Request) (s : State) :
    afterLine line rest (afterLine [ch] between s) = afterLine (ch :: line) rest s := by
  by_cases hcr : ch = ttyCr <;> simp [afterLine, hcr, List.replicate_succ]

section Line

variable {s : State} {text : List Byte} {rest : List Request} {ch : Byte}

/-- The next request of a `TTYPUTS` is a TTY write of its next character (30 R103). -/
theorem step_ttyPuts (hw : s.config.wf = true) (hr : s.requests = ttyPuts s.config (ch :: text) ++ rest) :
    ∃ o : WriteOperands, ttyChar o.wdata = ch ∧
      step s = ttyWrite o { s with requests := ttyPuts s.config text ++ rest } := by
  have hstep := step_decoded hw hr (decode_busWriteRequest ..)
  rw [Config.resolve_exp2_register hw (by decide), exec_selectWrite_exp2, if_pos rfl] at hstep
  exact ⟨_, ttyChar_truncTo_byte ch, hstep⟩

theorem ttyWrite_character {o : WriteOperands} (hs : Ready s) (hcap : s.config.ttyBufCap = none)
    (hlf : ttyChar o.wdata ≠ ttyLf) : ttyWrite o s = .next (afterLine [ttyChar o.wdata] s.requests s) := by
  by_cases hcr : ttyChar o.wdata = ttyCr
  · rw [ttyWrite_cr hs.1 hs.2 hcr]
    simp [afterLine, hcr, State.emit]
  · rw [ttyWrite_append hs.1 hs.2 hcr hlf ((ttyHasRoom_iff s).2 (by simp [hcap]))]
    simp [afterLine, hcr, State.emit]

theorem step_ttyPuts_character (hw : s.config.wf = true) (hs : Ready s) (hcap : s.config.ttyBufCap = none)
    (hlf : ch ≠ ttyLf) (hr : s.requests = ttyPuts s.config (ch :: text) ++ rest) :
    step s = .next (afterLine [ch] (ttyPuts s.config text ++ rest) s) := by
  obtain ⟨o, rfl, hstep⟩ := step_ttyPuts hw hr
  exact hstep.trans (ttyWrite_character hs hcap hlf)

theorem step_ttyPuts_lineFeed (hw : s.config.wf = true) (hs : Ready s)
    (hlog : s.ttyLineBuffer ≠ [] ∨ s.config.ttyFlushEmpty = true) (hr : s.requests = ttyPuts s.config [ttyLf] ++ rest) :
    step s = .next (({ s.record (.logTty s.ttyLineBuffer) with requests := rest, ttyLineBuffer := [] } : State).emit
      (.write true) none) := by
  obtain ⟨o, hlf, hstep⟩ := step_ttyPuts hw hr
  exact hstep.trans (ttyWrite_lf_logs (s := { s with requests := rest }) hs hlf hlog)

end Line

/-- Running a line is running what follows it from `afterLine`, character by character. -/
theorem run_ttyPuts {line text : List Byte} {rest : List Request} {s : State} (k : Nat) (hw : s.config.wf = true)
    (hs : Ready s) (hcap : s.config.ttyBufCap = none) (hlf : ttyLf ∉ line)
    (hr : s.requests = ttyPuts s.config (line ++ text) ++ rest) :
    Host.Core.run core (line.length + k) s =
      Host.Core.run core k (afterLine line (ttyPuts s.config text ++ rest) s) := by
  induction line generalizing s with
  | nil =>
    have hrest : s.requests = ttyPuts s.config text ++ rest := hr
    rw [← hrest, afterLine_nil, List.length_nil, Nat.zero_add]
  | cons ch line ih =>
    obtain ⟨hch, hline⟩ := not_or.1 (mt List.mem_cons.2 hlf)
    have first := step_ttyPuts_character hw hs hcap (Ne.symm hch) hr
    calc Host.Core.run core (line.length + 1 + k) s
        = Host.Core.run core (line.length + k + 1) s := by rw [Nat.add_right_comm]
      _ = Host.Core.run core (line.length + k) (afterLine [ch] (ttyPuts s.config (line ++ text) ++ rest) s) :=
        run_succ_of_step _ first
      _ = Host.Core.run core k (afterLine line (ttyPuts s.config text ++ rest) (afterLine [ch] _ s)) :=
        ih hw hs hcap hline rfl
      _ = Host.Core.run core k (afterLine (ch :: line) (ttyPuts s.config text ++ rest) s) := by rw [afterLine_cons]

end Sys2Proof.Machine

namespace Sys2Proof.Proofs

open Sys2Proof.Machine Sys2Proof.Statements

/-- Settles O27: the three rows share one meaning, whose only input is the parameter. -/
theorem theStatusReadIsConstant : Obligations.TheStatusReadIsConstant := by
  refine ⟨selectsRead_of_rowPattern .byte .exp2 rfl fun _ _ _ => rfl,
    selectsRead_of_rowPattern .halfWord .exp2 rfl fun _ _ _ => rfl,
    selectsRead_of_rowPattern .word .exp2 rfl fun _ _ _ => rfl, ?_⟩
  intro s o i hs hi
  exact (exec_of_mem_statusReads hi).trans (statusRead_ready hs.1 hs.2)

/-- Settles O28: the three rows share one meaning, split on the character, the flush of an empty line and the room left. -/
theorem ttyWritesAppendFlushOrAreIgnored : Obligations.TtyWritesAppendFlushOrAreIgnored := by
  refine ⟨selectsWrite_of_rowPattern .byte .exp2 rfl fun _ _ _ => rfl,
    selectsWrite_of_rowPattern .halfWord .exp2 rfl fun _ _ _ => rfl,
    selectsWrite_of_rowPattern .word .exp2 rfl fun _ _ _ => rfl, ?_⟩
  intro s o hs
  exact ⟨writesTty_of_exec_eq_ttyWrite hs rfl, writesTty_of_exec_eq_ttyWrite hs rfl, writesTty_of_exec_eq_ttyWrite hs rfl⟩

/-- Settles O30: by induction on the line its characters gather in the buffer, which the line feed then logs and empties. -/
theorem aLineWrittenToTheTtyIsLogged : Obligations.ALineWrittenToTheTtyIsLogged := by
  intro s rest line hw hs hcap hlf hlog hr
  have gathered := run_ttyPuts 1 hw hs hcap hlf hr
  have flushed := step_ttyPuts_lineFeed (s := afterLine line (ttyPuts s.config [ttyLf] ++ rest) s) hw hs hlog.symm rfl
  exact ⟨_, gathered.trans (run_succ_of_step 0 flushed), rfl, rfl, rfl, rfl, rfl⟩

/-- Settles O31: the three rows share one meaning, a `LogPOST` of the low nibble. -/
theorem postWritesLogTheLowNibble : Obligations.PostWritesLogTheLowNibble := by
  refine ⟨selectsWrite_of_rowPattern .byte .exp2 rfl fun _ _ _ => rfl,
    selectsWrite_of_rowPattern .halfWord .exp2 rfl fun _ _ _ => rfl,
    selectsWrite_of_rowPattern .word .exp2 rfl fun _ _ _ => rfl, ?_⟩
  intro s o i hs hi
  exact (exec_of_mem_postWrites hi).trans (postWrite_ready o hs.1 hs.2)

/-- Settles O32: away from the handled offsets the rows' checks fail, and what is left is the fallback of the width. -/
theorem unhandledExpansionAccessesAreInvalid : Obligations.UnhandledExpansionAccessesAreInvalid := by
  refine ⟨?readRows, ?writeRows, ?reads, ?writes⟩
  case readRows =>
    intro f hstatus
    exact ⟨selectsRead_of_rowPattern .byte .exp2 rfl fun _ _ _ => if_neg hstatus,
      selectsRead_of_rowPattern .halfWord .exp2 rfl fun _ _ _ => if_neg hstatus,
      selectsRead_of_rowPattern .word .exp2 rfl fun _ _ _ => if_neg hstatus⟩
  case writeRows =>
    intro f htty hpost
    exact ⟨selectsWrite_of_rowPattern .byte .exp2 rfl fun _ _ _ => (if_neg htty).trans (if_neg hpost),
      selectsWrite_of_rowPattern .halfWord .exp2 rfl fun _ _ _ => (if_neg htty).trans (if_neg hpost),
      selectsWrite_of_rowPattern .word .exp2 rfl fun _ _ _ => (if_neg htty).trans (if_neg hpost)⟩
  case reads =>
    intro s o hs
    exact ⟨readsInvalid_of_exec_eq_invalidRead hs rfl, readsInvalid_of_exec_eq_invalidRead hs rfl,
      readsInvalid_of_exec_eq_invalidRead hs rfl⟩
  case writes =>
    intro s o hs
    exact ⟨writesInvalid_of_exec_eq_invalidWrite hs rfl, writesInvalid_of_exec_eq_invalidWrite hs rfl,
      writesInvalid_of_exec_eq_invalidWrite hs rfl⟩

end Sys2Proof.Proofs
end

section
/-! PROOF. The statements of 42_bus_spu.md: which `SEL` words select the accesses to the sound processor window, that every read of
it is zero (R151, R152), and that every write to it is dropped (R153 to R155). -/

namespace Sys2Proof.Machine

/-! ## The meanings at every width (42 R150) -/

section Meanings

variable {s : State} {i : Instr}

theorem exec_of_mem_soundReads {o : ReadOperands}
    (hi : i ∈ [Instr.rdSpuStatB o, .rdSpuStatH o, .rdSpuStatW o, .rdSpuB o, .rdSpuH o, .rdSpuW o]) :
    exec i s = spuRead s := by
  simp only [List.mem_cons, List.not_mem_nil, or_false] at hi
  obtain rfl | rfl | rfl | rfl | rfl | rfl := hi <;> rfl

theorem exec_of_mem_soundWrites {o : WriteOperands}
    (hi : i ∈ [Instr.wrSpuFifoB o, .wrSpuFifoH o, .wrSpuFifoW o, .wrSpuCtrlB o, .wrSpuCtrlH o, .wrSpuCtrlW o, .wrSpuB o,
      .wrSpuH o, .wrSpuW o]) :
    exec i s = spuWrite s := by
  simp only [List.mem_cons, List.not_mem_nil, or_false] at hi
  obtain rfl | rfl | rfl | rfl | rfl | rfl | rfl | rfl | rfl := hi <;> rfl

end Meanings

end Sys2Proof.Machine

namespace Sys2Proof.Proofs

open Sys2Proof.Machine Sys2Proof.Statements

/-- Settles O33: the six rows share one meaning, whose carrier is zero and which changes nothing. -/
theorem soundReadsAreZero : Obligations.SoundReadsAreZero := by
  refine ⟨?statusRows, ?otherRows, ?reads⟩
  case statusRows =>
    exact ⟨selectsRead_of_rowPattern .byte .spu rfl fun _ _ _ => rfl,
      selectsRead_of_rowPattern .halfWord .spu rfl fun _ _ _ => rfl,
      selectsRead_of_rowPattern .word .spu rfl fun _ _ _ => rfl⟩
  case otherRows =>
    intro f hstat
    exact ⟨selectsRead_of_rowPattern .byte .spu rfl fun _ _ _ => if_neg hstat,
      selectsRead_of_rowPattern .halfWord .spu rfl fun _ _ _ => if_neg hstat,
      selectsRead_of_rowPattern .word .spu rfl fun _ _ _ => if_neg hstat⟩
  case reads =>
    intro s o i hs hi
    exact (exec_of_mem_soundReads hi).trans (spuRead_ready hs.1 hs.2)

/-- Settles O34: the nine rows share one meaning, which drops the carrier. -/
theorem soundWritesAreDropped : Obligations.SoundWritesAreDropped := by
  refine ⟨?fifoRows, ?controlRows, ?otherRows, ?writes⟩
  case fifoRows =>
    exact ⟨selectsWrite_of_rowPattern .byte .spu rfl fun _ _ _ => rfl,
      selectsWrite_of_rowPattern .halfWord .spu rfl fun _ _ _ => rfl,
      selectsWrite_of_rowPattern .word .spu rfl fun _ _ _ => rfl⟩
  case controlRows =>
    exact ⟨selectsWrite_of_rowPattern .byte .spu rfl fun _ _ _ => rfl,
      selectsWrite_of_rowPattern .halfWord .spu rfl fun _ _ _ => rfl,
      selectsWrite_of_rowPattern .word .spu rfl fun _ _ _ => rfl⟩
  case otherRows =>
    intro f hfifo hctrl
    exact ⟨selectsWrite_of_rowPattern .byte .spu rfl fun _ _ _ => (if_neg hfifo).trans (if_neg hctrl),
      selectsWrite_of_rowPattern .halfWord .spu rfl fun _ _ _ => (if_neg hfifo).trans (if_neg hctrl),
      selectsWrite_of_rowPattern .word .spu rfl fun _ _ _ => (if_neg hfifo).trans (if_neg hctrl)⟩
  case writes =>
    intro s o i hs hi
    exact (exec_of_mem_soundWrites hi).trans (spuWrite_ready hs.1 hs.2)

end Sys2Proof.Proofs
end

section
/-! PROOF. The statements of 43_bus_dma.md: which `SEL` words select the accesses to the DMA window, that a `Word` access is
forwarded verbatim (R166, R167), and that a narrower one fails the block (R168). -/

namespace Sys2Proof.Machine

open Sys2Proof.Statements

/-! ## The meanings on a ready bus (43 R166 to R168) -/

section Meanings

variable {s : State}

theorem execRdDmaW_ready (o : ReadOperands) (answer : Word) (hu : s.busUsable = true) (hf : s.busFailed = false) :
    execRdDmaW o answer s = .next ((s.record (.dmaRegRead o.offset)).emit (.read true answer) none) :=
  whenReady_ready hu hf

theorem execWrDmaW_ready (o : WriteOperands) (hu : s.busUsable = true) (hf : s.busFailed = false) :
    execWrDmaW o s = .next ((s.record (.dmaRegWrite o.offset o.wdata)).emit (.write true) none) :=
  whenReady_ready hu hf

theorem asserts_of_exec_eq_raiseDmaWidthAssert {i : Instr} {d : Direction} {w : Width} {busAddr : Word} (hs : Ready s)
    (hi : exec i s = raiseDmaWidthAssert d w busAddr s) : Asserts i d w busAddr s :=
  hi.trans (raiseDmaWidthAssert_ready d w busAddr hs.1 hs.2)

end Meanings

end Sys2Proof.Machine

namespace Sys2Proof.Proofs

open Sys2Proof.Machine Sys2Proof.Statements

/-- Settles O35: the word rows carry the offset and the carrier through unchecked, and the answer back. -/
theorem dmaWordAccessesAreForwarded : Obligations.DmaWordAccessesAreForwarded := by
  refine ⟨?readRow, ?writeRow, ?reads, ?writes⟩
  case readRow =>
    intro f c t cpu bus wdata answer
    exact decode_rowPattern_add .read .word .dma f c t cpu bus wdata answer
  case writeRow =>
    intro f
    exact selectsWrite_of_rowPattern .word .dma rfl fun _ _ _ => rfl
  case reads =>
    intro s o answer hs
    exact execRdDmaW_ready o answer hs.1 hs.2
  case writes =>
    intro s o hs
    exact execWrDmaW_ready o hs.1 hs.2

/-- Settles O36: the four narrow rows share one meaning, the width assertion. -/
theorem narrowDmaAccessesFailTheBlock : Obligations.NarrowDmaAccessesFailTheBlock := by
  refine ⟨?rows, ?reads, ?writes⟩
  case rows =>
    intro f
    exact ⟨selectsRead_of_rowPattern .byte .dma rfl fun _ _ _ => rfl,
      selectsRead_of_rowPattern .halfWord .dma rfl fun _ _ _ => rfl,
      selectsWrite_of_rowPattern .byte .dma rfl fun _ _ _ => rfl,
      selectsWrite_of_rowPattern .halfWord .dma rfl fun _ _ _ => rfl⟩
  case reads =>
    intro s o hs
    exact ⟨asserts_of_exec_eq_raiseDmaWidthAssert hs rfl, asserts_of_exec_eq_raiseDmaWidthAssert hs rfl⟩
  case writes =>
    intro s o hs
    exact ⟨asserts_of_exec_eq_raiseDmaWidthAssert hs rfl, asserts_of_exec_eq_raiseDmaWidthAssert hs rfl⟩

end Sys2Proof.Proofs
end

section
/-! PROOF. The statements of 44_bus_invalid.md: which `SEL` words select an access in no region, and that it completes with one
`LogInvalid`, a read as all ones and a write dropped (R180 to R182). -/

namespace Sys2Proof.Proofs

open Sys2Proof.Machine Sys2Proof.Statements

/-- Settles O37: the region's rows check no offset, and each has as its meaning the procedure `InvalidAccess` of its direction at
its width. -/
theorem invalidAccessesCompleteAndLog : Obligations.InvalidAccessesCompleteAndLog := by
  refine ⟨?readRows, ?writeRows, ?reads, ?writes⟩
  case readRows =>
    intro f
    exact ⟨selectsRead_of_rowPattern .byte .invalid rfl fun _ _ _ => rfl,
      selectsRead_of_rowPattern .halfWord .invalid rfl fun _ _ _ => rfl,
      selectsRead_of_rowPattern .word .invalid rfl fun _ _ _ => rfl⟩
  case writeRows =>
    intro f
    exact ⟨selectsWrite_of_rowPattern .byte .invalid rfl fun _ _ _ => rfl,
      selectsWrite_of_rowPattern .halfWord .invalid rfl fun _ _ _ => rfl,
      selectsWrite_of_rowPattern .word .invalid rfl fun _ _ _ => rfl⟩
  case reads =>
    intro s o hs
    exact ⟨readsInvalid_of_exec_eq_invalidRead hs rfl, readsInvalid_of_exec_eq_invalidRead hs rfl,
      readsInvalid_of_exec_eq_invalidRead hs rfl⟩
  case writes =>
    intro s o hs
    exact ⟨writesInvalid_of_exec_eq_invalidWrite hs rfl, writesInvalid_of_exec_eq_invalidWrite hs rfl,
      writesInvalid_of_exec_eq_invalidWrite hs rfl⟩

end Sys2Proof.Proofs
end

section
/-! PROOF. The statements of 45_bios_load.md: the image that a load of a file of the expected size leaves (R190, R193), a load that
fails (R190 to R192), and a patched word read back over the bus (R193; 95 S3). -/

namespace Sys2Proof

/-! ## The patches and the BIOS window under admitted parameters -/

section Parameters

variable {c : Config} {r : Region} {w : Window} {offset : Word}

/-- 00 R8.7, the second half: the patched ranges do not overlap. -/
theorem Config.biosPatches_pairwise_apart (hc : c.wf = true) :
    c.biosPatches.Pairwise fun p q => p.1 + 4 ≤ q.1 ∨ q.1 + 4 ≤ p.1 := by
  simp only [Config.wf, Config.patchesWf, Bool.and_eq_true, beq_iff_eq] at hc
  obtain ⟨⟨⟨-, ⟨hcount, -⟩, hapart⟩, -⟩, -⟩ := hc
  obtain ⟨p, q, hpq⟩ := List.length_eq_two.1 hcount
  rw [hpq] at hapart ⊢
  simpa [patchesApart] using hapart

theorem Config.bios_size_of_wf (hc : c.wf = true) : c.bios.size = c.biosSize := by
  simp only [Config.wf, Config.windowSizesWf, Bool.and_eq_true, beq_iff_eq] at hc
  tauto

/-- 00 R8.1: the image is no larger than the range of a 32-bit mask, so a patch's offset in it is a 32-bit number. -/
theorem Config.toNat_patch_offset {p : Nat × Word} (hc : c.wf = true) (hp : p ∈ c.biosPatches) :
    (BitVec.ofNat 32 p.1).toNat = p.1 := by
  have hinside := Machine.patch_inside hc p hp
  simp only [Config.wf, Config.masksWf, Bool.and_eq_true, beq_iff_eq] at hc
  have hmask : c.bios.mask.toNat + 1 = c.biosSize := by tauto
  rw [BitVec.toNat_ofNat, Nat.mod_eq_of_lt (by omega)]

/-- 00 R8.3: no address of a window wraps around, so an offset below the window's size leads to an address inside. -/
theorem Window.contains_base_add (hp : w.placed = true) (ho : offset.toNat < w.size) :
    w.contains (w.base + offset) = true := by
  simp only [Window.placed, Bool.and_eq_true, decide_eq_true_eq] at hp
  have hsum : (w.base + offset).toNat = w.base.toNat + offset.toNat := BitVec.toNat_add_of_lt (by omega)
  rw [Window.contains_iff]
  omega

/-- Outside RAM a window's base plus an offset inside the window resolves to that offset. -/
theorem Config.resolve_base_add (hc : c.wf = true) (hw : c.window? r = some w) (hr : r ≠ .ram)
    (ho : offset.toNat < w.size) : c.resolve (w.base + offset) = (r, offset) := by
  obtain ⟨hmask, hplaced⟩ := Config.window_of_wf hc hw
  have hin := Window.contains_base_add hplaced ho
  have hsub : w.base + offset - w.base = offset := by rw [BitVec.add_comm, BitVec.add_sub_cancel]
  rw [Config.resolve_of_contains hc hw hin, Window.offsetOf_eq_sub hmask (Config.window_size_le hc hw hr) hin, hsub]

end Parameters

end Sys2Proof

namespace Sys2Proof.Machine

open Sys2Proof.Statements

/-! ## The bytes of the patched image (45 R193) -/

section Patches

variable {ps : List (Nat × Word)} {p : Nat × Word} {a : Nat}

theorem applyPatches_cons (p : Nat × Word) (ps : List (Nat × Word)) (m : Memory) :
    applyPatches (p :: ps) m = applyPatches ps (m.storeLE p.1 p.2 4) := rfl

theorem read_applyPatches_outside (m : Memory) (h : ∀ p ∈ ps, a < p.1 ∨ p.1 + 4 ≤ a) :
    (applyPatches ps m).read a = m.read a := by
  induction ps generalizing m with
  | nil => rfl
  | cons p ps ih =>
    obtain ⟨hp, hps⟩ := List.forall_mem_cons.1 h
    rw [applyPatches_cons, ih _ hps]
    exact (m.stored_storeLE p.1 4 p.2).2 a hp

/-- Because the patches do not overlap, the later ones leave the bytes of an earlier one alone. -/
theorem read_applyPatches_patched (m : Memory) (hapart : ps.Pairwise fun p q => p.1 + 4 ≤ q.1 ∨ q.1 + 4 ≤ p.1)
    (hp : p ∈ ps) {k : Nat} (hk : k < 4) : (applyPatches ps m).read (p.1 + k) = p.2.extractLsb' (8 * k) 8 := by
  induction ps generalizing m with
  | nil => cases hp
  | cons q qs ih =>
    obtain ⟨hq, hqs⟩ := List.pairwise_cons.1 hapart
    rw [applyPatches_cons]
    obtain rfl | hp := List.mem_cons.1 hp
    · have later : ∀ r ∈ qs, p.1 + k < r.1 ∨ r.1 + 4 ≤ p.1 + k := fun r hr => by have := hq r hr; omega
      rw [read_applyPatches_outside _ later]
      exact (m.stored_storeLE p.1 4 p.2).1 k hk
    · exact ih _ hqs hp

/-- The four bytes of a patch load back as its value. -/
theorem ofNat_loadLE_applyPatches (m : Memory) (hapart : ps.Pairwise fun p q => p.1 + 4 ≤ q.1 ∨ q.1 + 4 ≤ p.1)
    (hp : p ∈ ps) : BitVec.ofNat 32 ((applyPatches ps m).loadLE p.1 Width.word.bytes) = p.2 := by
  have bytes : ∀ k < 4, (applyPatches ps m).read (p.1 + k) = (m.storeLE p.1 p.2 4).read (p.1 + k) := fun k hk =>
    (read_applyPatches_patched m hapart hp hk).trans ((m.stored_storeLE p.1 4 p.2).1 k hk).symm
  calc BitVec.ofNat 32 ((applyPatches ps m).loadLE p.1 Width.word.bytes)
      = BitVec.ofNat 32 ((m.storeLE p.1 p.2 Width.word.bytes).loadLE p.1 Width.word.bytes) :=
        congrArg _ (Memory.loadLE_congr bytes)
    _ = truncTo .word p.2 := ofNat_loadLE_storeLE m p.1 p.2 .word
    _ = p.2 := by simp [truncTo, Width.bits, Width.bytes]

/-- A byte of the file is in the buffer at its own offset. -/
theorem getElem?_toList_eq_read_ofBytes (content : Bytes) (ha : a < (Bytes.toList content).length) :
    (Bytes.toList content)[a]? = some ((Memory.ofBytes content).read a) := by
  rw [Memory.read_ofBytes, List.getElem?_eq_getElem ha, List.getD_eq_getElem _ _ ha]

end Patches

/-! ## What `LOADBIOS` answers (45 R190) -/

section Load

variable {s : State} {rest : List Request}

theorem exec_loadbios_success {content : Bytes} (hf : s.busFailed = false)
    (hs : (Bytes.toList content).length = s.config.biosSize) :
    exec (.loadbios (.bytes content)) s = .next (loadSuccess content s) :=
  calc exec (.loadbios (.bytes content)) s
      = .next (if Bytes.size content = s.config.biosSize then loadSuccess content s else loadFailure s) :=
        whenAlive_alive hf
    _ = .next (loadSuccess content s) := by rw [if_pos ((Bytes.size_eq_length content).trans hs)]

theorem exec_loadbios_failure {file : FileAnswer} (hf : s.busFailed = false)
    (hbad : ∀ content, file = .bytes content → (Bytes.toList content).length ≠ s.config.biosSize) :
    exec (.loadbios file) s = .next (loadFailure s) := by
  refine (whenAlive_alive hf).trans ?_
  cases file with
  | absent | shortRead => rfl
  | bytes content =>
    have hsize : Bytes.size content ≠ s.config.biosSize := Bytes.size_eq_length content ▸ hbad content rfl
    exact congrArg Host.Outcome.next (if_neg hsize)

/-! ## A load and a read of the image over the bus -/

theorem step_loadbios_success {content stream : Bytes} (hw : s.config.wf = true) (hf : s.busFailed = false)
    (hs : (Bytes.toList content).length = s.config.biosSize)
    (hr : s.requests = .hcmd 0x00 (.bytes content) stream :: rest) :
    step s = .next (loadSuccess content { s with requests := rest }) :=
  (step_decoded hw hr rfl).trans (exec_loadbios_success hf hs)

theorem step_busReadRequest_bios {w : Width} {offset cpu answer : Word} (hw : s.config.wf = true) (hready : Ready s)
    (hb : offset.toNat + w.bytes ≤ s.config.biosSize)
    (hr : s.requests = busReadRequest w cpu (s.config.bios.base + offset) answer :: rest) :
    step s = .next (({ s with requests := rest } : State).emit
      (.read true (BitVec.ofNat 32 (s.bios.loadLE offset.toNat w.bytes))) none) := by
  have hbytes : 0 < w.bytes := by cases w <;> decide
  have ho : offset.toNat < s.config.bios.size := by rw [Config.bios_size_of_wf hw]; omega
  rw [step_decoded hw hr (decode_busReadRequest ..), Config.resolve_base_add hw (r := .bios) rfl (by decide) ho,
    exec_selectRead_bios]
  exact readBuffer_ready s.bios hready.1 hready.2 hb

theorem step_busReadRequest_patch {m : Memory} {p : Nat × Word} {cpu answer : Word} (hw : s.config.wf = true)
    (hready : Ready s) (hbios : s.bios = applyPatches s.config.biosPatches m) (hp : p ∈ s.config.biosPatches)
    (hr : s.requests = busReadRequest .word cpu (s.config.bios.base + BitVec.ofNat 32 p.1) answer :: rest) :
    step s = .next (({ s with requests := rest } : State).emit (.read true p.2) none) := by
  have ho := Config.toNat_patch_offset hw hp
  have value := ofNat_loadLE_applyPatches m (Config.biosPatches_pairwise_apart hw) hp
  rw [step_busReadRequest_bios hw hready (ho.symm ▸ patch_inside hw p hp) hr, ho, hbios, value]

end Load

end Sys2Proof.Machine

namespace Sys2Proof.Proofs

open Sys2Proof.Machine Sys2Proof.Statements

/-- Settles O38: the image is the file's bytes with the patches stored over them. -/
theorem aLoadOfTheExpectedSizePatchesTheImage : Obligations.ALoadOfTheExpectedSizePatchesTheImage := by
  intro s content hw hf hs
  refine ⟨applyPatches s.config.biosPatches (Memory.ofBytes content), ?patched, ?others, exec_loadbios_success hf hs⟩
  case patched =>
    intro p hp k hk
    exact read_applyPatches_patched _ (Config.biosPatches_pairwise_apart hw) hp hk
  case others =>
    intro a ha houtside
    rw [read_applyPatches_outside _ houtside]
    exact getElem?_toList_eq_read_ofBytes content (hs.symm ▸ ha)

/-- Settles O39: every answer but a file of the expected size takes the one branch of failure. -/
theorem aFailedLoadLeavesTheBusUnusable : Obligations.AFailedLoadLeavesTheBusUnusable :=
  fun _ _ hf hbad => ⟨_, _, exec_loadbios_failure hf hbad⟩

/-- Settles O40: the load makes the bus ready, and the read meets the patch's four bytes in the loaded image. -/
theorem aPatchedWordReadsBackAfterTheLoad : Obligations.APatchedWordReadsBackAfterTheLoad := by
  intro s rest content stream p cpu answer hw hf hs hp hr
  have loaded := step_loadbios_success hw hf hs hr
  refine ⟨_, (run_succ_of_step 1 loaded).trans
    (run_succ_of_step 0 (step_busReadRequest_patch hw ⟨rfl, hf⟩ rfl hp rfl)), ?_⟩
  simp [loadSuccess]

end Sys2Proof.Proofs
end

section
/-! PROOF. The statements of 46_periph_transfer.md: the rows of the transfer table (R201 to R209), the motion sample and its clamp
(R213, R216, R217), `ack` (R212), and a full exchange (R211). -/

namespace Sys2Proof

/-! ## The words of a row (30 R85, R90) -/

section Rows

variable {pattern : BitVec 12} (t : TransferState) (input : Byte)

/-- An `XSEL` word as its state's pattern plus the input byte. -/
theorem xselWord_eq_add : xselWord t input = xselWord t 0 + input.setWidth 12 := by
  have hinput := input.isLt
  have hstate := t.code_lt
  have value : ∀ b : Byte, (xselWord t b).toNat = t.code * 256 + b.toNat := fun b => by
    rw [xselWord, BitVec.toNat_append, code_toNat, ← Nat.shiftLeft_add_eq_or_of_lt b.isLt, Nat.shiftLeft_eq]
  apply BitVec.eq_of_toNat_eq
  rw [BitVec.toNat_add, value, value, BitVec.toNat_setWidth, show (0 : Byte).toNat = 0 from rfl]
  omega

theorem decodeXsel_pattern_add (hp : pattern = xselWord t 0) (p : Position) :
    decodeXsel (pattern + input.setWidth 12) p = .ok (selectTransfer t input p) := by
  rw [hp, ← xselWord_eq_add, decodeXsel_word]

end Rows

/-! ## The clamp (00 R9) -/

theorem clamp_eq_clamped (d : Int) : clamp d deltaMin deltaMax = Statements.clamped d := by
  unfold clamp deltaMin deltaMax Statements.clamped
  split_ifs <;> omega

/-- The clamped range is that of a signed byte, so the byte holds the clamped difference. -/
theorem toInt_deltaByte (d : Int) : (deltaByte d).toInt = Statements.clamped d := by
  have low : -128 ≤ Statements.clamped d := le_max_left _ _
  have high : Statements.clamped d ≤ 127 := max_le (by decide) (min_le_left _ _)
  rw [deltaByte, clamp_eq_clamped, BitVec.toInt_ofInt]
  apply Int.bmod_eq_of_le <;> omega

theorem deltaByte_zero : deltaByte 0 = 0 := rfl

end Sys2Proof

namespace Sys2Proof.Machine

open Sys2Proof.Statements

/-! ## What each row answers (46 R201 to R209) -/

section Rows

variable (s : State) (input : Byte)

theorem transfers_xferIdleSel : Transfers .xferIdleSel true 0xFF .ready s := rfl
theorem transfers_xferIdleOther : Transfers (.xferIdleOther input) false 0xFF .idle s := rfl
theorem transfers_xferReadyPoll : Transfers .xferReadyPoll true 0x12 .idMsb s := rfl
theorem transfers_xferReadyOther : Transfers (.xferReadyOther input) false 0xFF .idle s := rfl
theorem transfers_xferIdmsb : Transfers (.xferIdmsb input) true 0x5A .buttonsLsb s := rfl
theorem transfers_xferBtnlsb : Transfers (.xferBtnlsb input) true (s.buttonState.extractLsb' 0 8) .buttonsMsb s := rfl
theorem transfers_xferBtnmsb : Transfers (.xferBtnmsb input) true (s.buttonState.extractLsb' 8 8) .deltaX s := rfl
theorem transfers_xferDeltay : Transfers (.xferDeltay input) false s.deltaY .idle s := rfl

/-- The `DeltaX` row ends its transfer from the state that the sample left. -/
theorem exec_xferDeltax (p : Position) :
    exec (.xferDeltax input p) s = finishTransfer true (sampleMotion p s).deltaX .deltaY (sampleMotion p s) := rfl

/-- Every row is one `finishTransfer`, whose `ack` says whether the exchange goes on. -/
theorem exec_eq_finishTransfer_of_transferRow {i : Instr} {row : TransferState} (hrow : i.transferRow = some row) :
    ∃ ack output next u, u.outputs = s.outputs ∧ (ack = false ↔ next = .idle) ∧
      exec i s = finishTransfer ack output next u := by
  cases i with
  | xferDeltax input p => exact ⟨_, _, _, sampleMotion p s, rfl, by decide, exec_xferDeltax s input p⟩
  | xferIdleSel | xferIdleOther | xferReadyPoll | xferReadyOther | xferIdmsb | xferBtnlsb | xferBtnmsb | xferDeltay =>
    exact ⟨_, _, _, s, rfl, by decide, rfl⟩
  | _ => cases hrow

end Rows

/-! ## The motion sample (46 R213) -/

section Sample

variable (p : Position) (s : State)

@[simp] theorem sampleMotion_config : (sampleMotion p s).config = s.config := rfl
@[simp] theorem sampleMotion_deltaX :
    (sampleMotion p s).deltaX = deltaByte (s.config.toCoordinate p.x - s.lastHostPositionX) := rfl
@[simp] theorem sampleMotion_deltaY :
    (sampleMotion p s).deltaY = deltaByte (s.config.toCoordinate p.y - s.lastHostPositionY) := rfl
@[simp] theorem sampleMotion_lastHostPositionX :
    (sampleMotion p s).lastHostPositionX = s.config.toCoordinate p.x := rfl
@[simp] theorem sampleMotion_lastHostPositionY :
    (sampleMotion p s).lastHostPositionY = s.config.toCoordinate p.y := rfl
@[simp] theorem sampleMotion_outputs : (sampleMotion p s).outputs = s.outputs := rfl

variable {p s}

/-- 00 R13: an answer the provider can give is taken as it is. -/
theorem toCoordinate_of_positionFits {c : Config} (hc : c.wf = true) (hp : c.positionFits p = true) :
    c.toCoordinate p.x = p.x ∧ c.toCoordinate p.y = p.y := by
  obtain ⟨hx, hy⟩ := Bool.and_eq_true_iff.1 hp
  exact ⟨toCoordinate_of_fits (posBits_pos hc) hx, toCoordinate_of_fits (posBits_pos hc) hy⟩

theorem sampleMotion_of_positionFits (hw : s.config.wf = true) (hp : s.config.positionFits p = true) :
    sampleMotion p s = { logging s (.pointerPosition p.x p.y) with
      deltaX := deltaByte (p.x - s.lastHostPositionX), deltaY := deltaByte (p.y - s.lastHostPositionY)
      lastHostPositionX := p.x, lastHostPositionY := p.y } := by
  obtain ⟨hx, hy⟩ := toCoordinate_of_positionFits hw hp
  rw [sampleMotion, hx, hy]
  rfl

end Sample

/-! ## Transfers as steps (O48) -/

/-- The state once transfers have given these results, the engine is in `next` and `rest` is left to run. -/
def afterTransfers (results : List Result) (next : TransferState) (rest : List Request) (s : State) : State :=
  { s with requests := rest, transferState := next, outputs := s.outputs ++ results }

theorem afterTransfers_nil {s : State} {state : TransferState} (h : s.transferState = state) :
    afterTransfers [] state s.requests s = s := by
  simp [afterTransfers, ← h]

section Steps

variable {s : State} {rest : List Request} {results : List Result} {p : Position}

theorem finishTransfer_afterTransfers (ack : Bool) (output : Byte) (state next : TransferState) :
    finishTransfer ack output next (afterTransfers results state rest s) =
      .next (afterTransfers (results ++ [⟨.transfer ack output, none⟩]) next rest s) := by
  simp [finishTransfer, afterTransfers, State.emit]

/-- A sample neither sees nor changes what other transfers do. -/
theorem sampleMotion_afterTransfers (state : TransferState) :
    sampleMotion p (afterTransfers results state rest s) = afterTransfers results state rest (sampleMotion p s) := rfl

theorem step_transferRequest {input : Byte} (hw : s.config.wf = true) (hr : s.requests = transferRequest input p :: rest) :
    step s = exec (selectTransfer s.transferState input p) { s with requests := rest } :=
  step_decoded hw hr (decodePcmd_transfer input)

theorem step_afterTransfers (state : TransferState) (input : Byte) {ack : Bool} {output : Byte} {next : TransferState}
    (hw : s.config.wf = true)
    (ht : Transfers (selectTransfer state input p) ack output next (afterTransfers results state rest s)) :
    step (afterTransfers results state (transferRequest input p :: rest) s) =
      .next (afterTransfers (results ++ [⟨.transfer ack output, none⟩]) next rest s) :=
  calc step (afterTransfers results state (transferRequest input p :: rest) s)
      = exec (selectTransfer state input p) (afterTransfers results state rest s) := step_transferRequest hw rfl
    _ = finishTransfer ack output next (afterTransfers results state rest s) := ht
    _ = _ := finishTransfer_afterTransfers ..

theorem step_afterTransfers_deltaX (input : Byte) (hw : s.config.wf = true) :
    step (afterTransfers results .deltaX (transferRequest input p :: rest) s) =
      .next (afterTransfers (results ++ [⟨.transfer true (sampleMotion p s).deltaX, none⟩]) .deltaY rest
        (sampleMotion p s)) :=
  calc step (afterTransfers results .deltaX (transferRequest input p :: rest) s)
      = exec (.xferDeltax input p) (afterTransfers results .deltaX rest s) := step_transferRequest hw rfl
    _ = finishTransfer true (sampleMotion p s).deltaX .deltaY (afterTransfers results .deltaX rest (sampleMotion p s)) := by
      rw [exec_xferDeltax, sampleMotion_afterTransfers]; rfl
    _ = _ := finishTransfer_afterTransfers ..

/-- Seven transfers from `Idle` run the seven forward rows; the sixth alone changes more than the place in the exchange. -/
theorem run_exchange {x1 x2 x3 x4 x5 : Byte} {q1 q2 q3 q4 q5 q6 : Position} (hw : s.config.wf = true)
    (hidle : s.transferState = .idle)
    (hr : s.requests = transferRequest 0x01 q1 :: transferRequest 0x42 q2 :: transferRequest x1 q3 ::
      transferRequest x2 q4 :: transferRequest x3 q5 :: transferRequest x4 p :: transferRequest x5 q6 :: rest) :
    Host.Core.run core 7 s = .next (afterTransfers
      [⟨.transfer true 0xFF, none⟩, ⟨.transfer true 0x12, none⟩, ⟨.transfer true 0x5A, none⟩,
        ⟨.transfer true (s.buttonState.extractLsb' 0 8), none⟩, ⟨.transfer true (s.buttonState.extractLsb' 8 8), none⟩,
        ⟨.transfer true (sampleMotion p s).deltaX, none⟩, ⟨.transfer false (sampleMotion p s).deltaY, none⟩]
      .idle rest (sampleMotion p s)) := by
  calc Host.Core.run core 7 s
      = Host.Core.run core 7 (afterTransfers [] .idle s.requests s) := by rw [afterTransfers_nil hidle]
    _ = _ := by
      rw [hr, run_succ_of_step _ (step_afterTransfers .idle 0x01 hw (transfers_xferIdleSel _)),
        run_succ_of_step _ (step_afterTransfers .ready 0x42 hw (transfers_xferReadyPoll _)),
        run_succ_of_step _ (step_afterTransfers .idMsb x1 hw (transfers_xferIdmsb _ x1)),
        run_succ_of_step _ (step_afterTransfers .buttonsLsb x2 hw (transfers_xferBtnlsb _ x2)),
        run_succ_of_step _ (step_afterTransfers .buttonsMsb x3 hw (transfers_xferBtnmsb _ x3)),
        run_succ_of_step _ (step_afterTransfers_deltaX x4 hw),
        run_succ_of_step _ (step_afterTransfers (s := sampleMotion p s) .deltaY x5 hw (transfers_xferDeltay _ x5))]
      rfl

end Steps

end Sys2Proof.Machine

namespace Sys2Proof.Proofs

open Sys2Proof.Machine Sys2Proof.Statements

/-- Settles O41: in `Idle` and `Ready` the row turns on whether the input is the one command byte. -/
theorem selectAndPollRowsAnswerAsTheTable : Obligations.SelectAndPollRowsAnswerAsTheTable := by
  refine ⟨?commands, ?idleOther, ?readyOther, ?answers⟩
  case commands =>
    intro p
    exact ⟨decodeXsel_word .idle cmdSelect p, decodeXsel_word .ready cmdPoll p⟩
  case idleOther =>
    intro input p hother
    exact (decodeXsel_pattern_add .idle input rfl p).trans (congrArg Except.ok (if_neg hother))
  case readyOther =>
    intro input p hother
    exact (decodeXsel_pattern_add .ready input rfl p).trans (congrArg Except.ok (if_neg hother))
  case answers =>
    intro s input
    exact ⟨transfers_xferIdleSel s, transfers_xferIdleOther s input, transfers_xferReadyPoll s,
      transfers_xferReadyOther s input⟩

/-- Settles O42: these rows take any input byte, and none of them reads it. -/
theorem dataRowsAnswerAsTheTable : Obligations.DataRowsAnswerAsTheTable := by
  refine ⟨?rows, ?answers⟩
  case rows =>
    intro input p
    exact ⟨decodeXsel_pattern_add .idMsb input rfl p, decodeXsel_pattern_add .buttonsLsb input rfl p,
      decodeXsel_pattern_add .buttonsMsb input rfl p, decodeXsel_pattern_add .deltaY input rfl p⟩
  case answers =>
    intro s input
    exact ⟨transfers_xferIdmsb s input, transfers_xferBtnlsb s input, transfers_xferBtnmsb s input,
      transfers_xferDeltay s input⟩

/-- Settles O43: an answer that fits is the new baseline, and each delta byte holds its clamped difference. -/
theorem theDeltaXRowSamplesTheMotion : Obligations.TheDeltaXRowSamplesTheMotion := by
  refine ⟨fun input p => decodeXsel_pattern_add .deltaX input rfl p, ?_⟩
  intro s input p hw hp
  refine ⟨_, _, toInt_deltaByte _, toInt_deltaByte _, ?_⟩
  rw [exec_xferDeltax, sampleMotion_of_positionFits hw hp]
  rfl

/-- Settles O45: the first sample moved the baseline to the pointer itself, so the second finds no difference. -/
theorem motionBeyondTheClampIsLost : Obligations.MotionBeyondTheClampIsLost := by
  intro s t u input input' p hfirst hsecond
  obtain rfl := finishTransfer_next hfirst
  obtain rfl := finishTransfer_next hsecond
  simp [deltaByte_zero]

/-- Settles O46: of the changes an instruction can make, only the sample's is to the baseline, and only its and the restore's are
to the deltas. -/
theorem onlyTheDeltaXRowSamples : Obligations.OnlyTheDeltaXRowSamples := by
  intro i s t hsample h
  obtain ⟨r, c, rfl | ⟨e, rfl⟩⟩ | ⟨d, w, a, -, rfl⟩ | ⟨o, v, w, -, rfl⟩ | ⟨o, v, w, -, -, rfl⟩ | ⟨b, rfl⟩ | rfl |
    ⟨ack, out, n, row, -, -, -, rfl⟩ | ⟨input, p, hi, -⟩ | ⟨-, rfl⟩ | ⟨m, rfl⟩ | ⟨apply, stream, m, dx, dy, n, hi, rfl⟩ |
    ⟨content, -, -, rfl⟩ | ⟨file, -, rfl⟩ | ⟨stream, n, tty, -, -, rfl⟩ := exec_cases h
  any_goals exact ⟨rfl, rfl, fun _ => ⟨rfl, rfl⟩⟩
  · exact absurd hi (hsample input p)
  · exact ⟨by simp, by simp, fun hrestore => absurd hi (hrestore apply stream)⟩

/-- Settles O47: every row ends in `finishTransfer`, with `ack` false for `Idle` alone. -/
theorem ackIsFalseExactlyWhenIdleFollows : Obligations.AckIsFalseExactlyWhenIdleFollows := by
  intro i s t row hrow h
  obtain ⟨ack, output, next, u, houtputs, hack, hi⟩ := exec_eq_finishTransfer_of_transferRow s hrow
  obtain rfl := finishTransfer_next (hi ▸ h)
  exact ⟨ack, output, by simp [houtputs], hack⟩

/-- Settles O48: the seven forward rows in turn, the last of which sends the delta that the sixth latched. -/
theorem aFullExchangeReportsButtonsAndMotion : Obligations.AFullExchangeReportsButtonsAndMotion := by
  intro s rest x1 x2 x3 x4 x5 p q1 q2 q3 q4 q5 q6 hw hidle hp hr
  obtain ⟨hx, hy⟩ := toCoordinate_of_positionFits hw hp
  refine ⟨_, deltaByte (p.x - s.lastHostPositionX), deltaByte (p.y - s.lastHostPositionY), run_exchange hw hidle hr, rfl,
    rfl, rfl, hx, hy, toInt_deltaByte _, toInt_deltaByte _, ?outputs⟩
  case outputs => simp [afterTransfers, hx, hy]

end Sys2Proof.Proofs
end

section
/-! PROOF. The statements of 30_encoding.md that need the encoder: decoding inverts it (sections 2, 3), and it inverts the
decoding of a transaction (R82, R88). -/

namespace Sys2Proof

open Sys2Proof.Machine

/-! ## The rows of a located access (30 R89) -/

section Accesses

variable {c : Config} {r : Region} {w : Width} {row : Word → Bool} {i : Instr}

/-- A write to the POST register passes the check for the TTY register before its own. -/
theorem selectWrite_post {o : WriteOperands} (h : o.offset = exp2PostOffset) :
    selectWrite w .exp2 o = w.pick (.wrExp2PostB o) (.wrExp2PostH o) (.wrExp2PostW o) := by
  rw [selectWrite, if_neg (by rw [h]; decide), if_pos h]

/-- A write to the control register passes the check for the FIFO before its own. -/
theorem selectWrite_spuCtrl {o : WriteOperands} (h : o.offset = spuCtrlOffset) :
    selectWrite w .spu o = w.pick (.wrSpuCtrlB o) (.wrSpuCtrlH o) (.wrSpuCtrlW o) := by
  rw [selectWrite, if_neg (by rw [h]; decide), if_pos h]

theorem selectWrite_exp2_other {o : WriteOperands} (h : (o.offset != exp2TtyOffset && o.offset != exp2PostOffset) = true) :
    selectWrite w .exp2 o = w.pick (.wrExp2InvB o) (.wrExp2InvH o) (.wrExp2InvW o) := by
  obtain ⟨htty, hpost⟩ := Bool.and_eq_true_iff.1 h
  rw [selectWrite, if_neg (bne_iff_ne.1 htty), if_neg (bne_iff_ne.1 hpost)]

theorem selectWrite_spu_other {o : WriteOperands} (h : (o.offset != spuFifoOffset && o.offset != spuCtrlOffset) = true) :
    selectWrite w .spu o = w.pick (.wrSpuB o) (.wrSpuH o) (.wrSpuW o) := by
  obtain ⟨hfifo, hctrl⟩ := Bool.and_eq_true_iff.1 h
  rw [selectWrite, if_neg (bne_iff_ne.1 hfifo), if_neg (bne_iff_ne.1 hctrl)]

/-! ## Decoding what the encoder builds (O2) -/

/-- An access as issued resolves to its own region and offset, where the row's condition on the offset selects it. -/
theorem decode_encodeRead {o : ReadOperands} {answer : Word} {t : TransferState} (hc : c.wf = true)
    (h : o.fits c r row = true) (hi : row o.offset = true → selectRead w r o answer = i) :
    decode c t (encodeRead w o answer) = .ok i := by
  obtain ⟨hlocated, hrow⟩ := Bool.and_eq_true_iff.1 h
  rw [← hi hrow]
  refine (decode_busReadRequest c t w o.cpuAddr o.busAddr answer).trans ?_
  rw [Config.resolve_of_located hc hlocated]

theorem decode_encodeWrite {o : WriteOperands} {t : TransferState} (hc : c.wf = true)
    (h : o.fits c r row = true) (hi : row o.offset = true → selectWrite w r o = i) :
    decode c t (encodeWrite w o) = .ok i := by
  obtain ⟨hlocated, hrow⟩ := Bool.and_eq_true_iff.1 h
  rw [← hi hrow]
  refine (decode_busWriteRequest c t w o.cpuAddr o.busAddr o.wdata).trans ?_
  rw [Config.resolve_of_located hc hlocated]

end Accesses

section Commands

variable {c : Config} {t : TransferState} {stream : Bytes} {pointer : Position}

theorem decode_encodeTransfer (input : Byte) :
    decode c t (encodeTransfer input pointer) = .ok (selectTransfer t input pointer) :=
  decodePcmd_transfer input

/-- The `arg` of a button command reads back as its code and its `pressed` bit (30 R84). -/
theorem pcmdWord_buttonArg (cmd : BitVec 4) (code : Byte) (pressed : Bool) :
    (pcmdWord cmd (buttonArg code pressed)).extractLsb' 0 8 = code ∧
    (pcmdWord cmd (buttonArg code pressed)).extractLsb' 9 3 = 0 ∧
    (pcmdWord cmd (buttonArg code pressed)).getLsbD 8 = pressed := by
  rw [pcmdWord_argPart _ _ (by decide), pcmdWord_argPart _ _ (by decide), pcmdWord_argBit _ _ (by decide)]
  exact ⟨buttonArg_code .., buttonArg_unused .., buttonArg_pressed ..⟩

theorem decodePcmd_setbtn_word {identity : Byte} (hid : identity.toNat < c.buttonCount) (pressed : Bool) :
    decodePcmd c t (pcmdWord 2 (buttonArg identity pressed)) stream pointer = .ok (.setbtn identity pressed) := by
  obtain ⟨hcode, hunused, hpressed⟩ := pcmdWord_buttonArg 2 identity pressed
  rw [decodePcmd_setbtn (pcmdWord_cmd _ _), hcode, hunused, hpressed, if_pos hid, whenZero_zero]

theorem decodePcmd_setbtnc_word (code : Byte) (pressed : Bool) :
    decodePcmd c t (pcmdWord 3 (buttonArg code pressed)) stream pointer = .ok (.setbtnc code pressed) := by
  obtain ⟨hcode, hunused, hpressed⟩ := pcmdWord_buttonArg 3 code pressed
  rw [decodePcmd_setbtnc (pcmdWord_cmd _ _), hcode, hunused, hpressed, whenZero_zero]

theorem decodePcmd_pload_word (apply : Bool) :
    decodePcmd c t (pcmdWord 5 (ploadArg apply)) stream pointer = .ok (.pload apply stream) := by
  cases apply <;> rfl

end Commands

/-! ## Encoding what a transaction decodes to (O3) -/

section Transactions

variable {c : Config}

/-- An access that the decoder selects is well formed exactly when its region and offset are those of its address: the row's own
condition on the offset is the one it was selected by. -/
theorem wellFormed_selectRead (w : Width) (r : Region) (o : ReadOperands) (answer : Word) :
    WellFormed c (selectRead w r o answer) = c.located r o.offset o.busAddr := by
  cases r with
  | exp2 | spu =>
    rw [selectRead]
    split
    · next h => cases w <;> simp [WellFormed, ReadOperands.fits, Width.pick, h]
    · next h => cases w <;> simp [WellFormed, ReadOperands.fits, Width.pick, h]
  | ram | bios | dma | invalid => cases w <;> exact Bool.and_true _

theorem wellFormed_selectWrite (w : Width) (r : Region) (o : WriteOperands) :
    WellFormed c (selectWrite w r o) = c.located r o.offset o.busAddr := by
  cases r with
  | exp2 | spu =>
    rw [selectWrite]
    split
    · next h => cases w <;> simp [WellFormed, WriteOperands.fits, Width.pick, h]
    · next h =>
      split
      · next h' => cases w <;> simp [WellFormed, WriteOperands.fits, Width.pick, h']
      · next h' => cases w <;> simp [WellFormed, WriteOperands.fits, Width.pick, h, h']
  | ram | bios | dma | invalid => cases w <;> exact Bool.and_true _

/-- Only `RD.DMA.W` keeps the collaborator's answer (43 R165). -/
theorem encode_selectRead (w : Width) (r : Region) (o : ReadOperands) (answer : Word) :
    ∃ a, encode (selectRead w r o answer) = encodeRead w o a := by
  cases r with
  | exp2 | spu =>
    rw [selectRead]
    split <;> cases w <;> exact ⟨_, rfl⟩
  | ram | bios | dma | invalid => cases w <;> exact ⟨_, rfl⟩

theorem encode_selectWrite (w : Width) (r : Region) (o : WriteOperands) : encode (selectWrite w r o) = encodeWrite w o := by
  cases r with
  | exp2 | spu =>
    rw [selectWrite]
    split
    · cases w <;> rfl
    · split <;> cases w <;> rfl
  | ram | bios | dma | invalid => cases w <;> rfl

theorem decodeAccess_ok {dir width : BitVec 4} {d : Direction} {w : Width} (h : decodeAccess dir width = .ok (d, w)) :
    d.code = dir ∧ w.code = width := by
  unfold decodeAccess at h
  split at h
  case h_3 d' w' hd hw =>
    cases h
    exact ⟨Direction.code_of_ofCode hd, Width.code_of_ofCode hw⟩
  all_goals cases h

/-- A `TXN` word is its four fields. -/
theorem txn_eq_append (word : BitVec 72) :
    word.extractLsb' 68 4 ++ word.extractLsb' 64 4 ++ word.extractLsb' 32 32 ++ word.extractLsb' 0 32 = word := by
  rw [BitVec.extractLsb'_append_extractLsb'_eq_extractLsb' (by rfl),
    BitVec.extractLsb'_append_extractLsb'_eq_extractLsb' (by rfl),
    BitVec.extractLsb'_append_extractLsb'_eq_extractLsb' (by rfl), BitVec.extractLsb'_eq_self]

/-- What a `TXN` word that decodes says: it is the word of its direction, width, address and carrier, and a read's carrier is 0
(30 R82, R88). -/
theorem decodeTxn_ok {word : BitVec 72} {s : Selector} (h : decodeTxn c word = .ok s) :
    word = txnWord s.direction s.width (word.extractLsb' 32 32) (word.extractLsb' 0 32) ∧
    (s.direction = .read → word.extractLsb' 0 32 = 0) ∧
    (s.region, s.offset) = c.resolve (word.extractLsb' 32 32) := by
  unfold decodeTxn at h
  split at h
  · cases h
  · next d w hdw =>
    obtain ⟨hd, hw⟩ := decodeAccess_ok hdw
    split at h
    · cases h
    · next hdata =>
      cases h
      exact ⟨by rw [txnWord, hd, hw, txn_eq_append], by simpa using hdata, rfl⟩

end Transactions

end Sys2Proof

namespace Sys2Proof.Proofs

open Sys2Proof.Machine

/-- Settles O2, by the form of the row: an access resolves to its region and offset, a transfer is selected in its row's
state, and a command's fields read back. -/
theorem decodingAnEncodedInstructionGivesItBack : Obligations.DecodingAnEncodedInstructionGivesItBack := by
  intro c t i hc hi ht
  cases i with
  | rdRamB | rdRamH | rdRamW | rdBiosB | rdBiosH | rdBiosW | rdDmaB | rdDmaH | rdDmaW | rdInvB | rdInvH | rdInvW =>
    exact decode_encodeRead hc hi fun _ => rfl
  | wrRamB | wrRamH | wrRamW | wrBiosB | wrBiosH | wrBiosW | wrDmaB | wrDmaH | wrDmaW | wrInvB | wrInvH | wrInvW =>
    exact decode_encodeWrite hc hi fun _ => rfl
  | rdExp2StatusB | rdExp2StatusH | rdExp2StatusW | rdSpuStatB | rdSpuStatH | rdSpuStatW =>
    rw [WellFormed] at hi
    exact decode_encodeRead hc hi fun hrow => if_pos (eq_of_beq hrow)
  | rdExp2InvB | rdExp2InvH | rdExp2InvW | rdSpuB | rdSpuH | rdSpuW =>
    rw [WellFormed] at hi
    exact decode_encodeRead hc hi fun hrow => if_neg (bne_iff_ne.1 hrow)
  | wrExp2TtyB | wrExp2TtyH | wrExp2TtyW | wrSpuFifoB | wrSpuFifoH | wrSpuFifoW =>
    rw [WellFormed] at hi
    exact decode_encodeWrite hc hi fun hrow => if_pos (eq_of_beq hrow)
  | wrExp2PostB | wrExp2PostH | wrExp2PostW =>
    rw [WellFormed] at hi
    exact decode_encodeWrite hc hi fun hrow => selectWrite_post (eq_of_beq hrow)
  | wrSpuCtrlB | wrSpuCtrlH | wrSpuCtrlW =>
    rw [WellFormed] at hi
    exact decode_encodeWrite hc hi fun hrow => selectWrite_spuCtrl (eq_of_beq hrow)
  | wrExp2InvB | wrExp2InvH | wrExp2InvW =>
    rw [WellFormed] at hi
    exact decode_encodeWrite hc hi selectWrite_exp2_other
  | wrSpuB | wrSpuH | wrSpuW =>
    rw [WellFormed] at hi
    exact decode_encodeWrite hc hi selectWrite_spu_other
  | xferIdleSel | xferReadyPoll | xferIdmsb | xferBtnlsb | xferBtnmsb | xferDeltax | xferDeltay =>
    obtain rfl := ht _ rfl
    exact decode_encodeTransfer _
  | xferIdleOther | xferReadyOther =>
    obtain rfl := ht _ rfl
    exact (decode_encodeTransfer _).trans (congrArg Except.ok (if_neg (bne_iff_ne.1 hi)))
  | setbtn identity pressed => exact decodePcmd_setbtn_word (of_decide_eq_true hi) pressed
  | setbtnc code pressed => exact decodePcmd_setbtnc_word code pressed
  | pload apply stream => exact decodePcmd_pload_word apply
  | preset | psave | gettype | getvmc | loadbios | bsave | bload => rfl

/-- Settles O3: the word is its fields, and the access selected by them is the one whose fields they are. -/
theorem encodingADecodedTransactionGivesItBack : Obligations.EncodingADecodedTransactionGivesItBack := by
  intro c t word cpu answer i h
  rw [decode] at h
  cases hs : decodeTxn c word with
  | error e => rw [hs] at h; cases h
  | ok s =>
    rw [hs] at h
    cases h
    obtain ⟨hword, hdata, hresolve⟩ := decodeTxn_ok hs
    have hlocated := c.located_resolve (word.extractLsb' 32 32)
    rw [← hresolve] at hlocated
    obtain ⟨d, w, r, offset⟩ := s
    cases d with
    | read =>
      obtain ⟨a, ha⟩ := encode_selectRead w r ⟨offset, cpu, word.extractLsb' 32 32⟩ answer
      refine ⟨(wellFormed_selectRead ..).trans hlocated, a, ha.trans ?_⟩
      rw [encodeRead, ← hdata rfl, ← hword]
    | write =>
      refine ⟨(wellFormed_selectWrite ..).trans hlocated, 0, (encode_selectWrite ..).trans ?_⟩
      rw [encodeWrite, ← hword]

end Sys2Proof.Proofs
end

section
/-! PROOF. The opcode table of 30_encoding.md section 5 (R95): a `SEL` or `XSEL` word decodes to its first matching row. A row looks
at the high bits of a word, and at the low ones only to compare them with a value it names; so one word for each high part and each
named value, and one for all other low parts, stand for every word. -/

namespace Sys2Proof

/-! ## What a row looks at -/

section Rows

variable {m k : Nat}

/-- A row of a format of `m` high bits and `k` low ones that compares the high bits, and the low bits with nothing but a value of
`named`. -/
def Row.comparesNamed (named : List (BitVec k)) (m : Nat) (r : Row) : Bool :=
  (r.mask == (2 ^ m - 1) * 2 ^ k && r.pattern % 2 ^ k == 0) ||
    (r.mask == 2 ^ (m + k) - 1 && named.contains (BitVec.ofNat k r.pattern))

/-- Every row of the format is such a row. -/
def Format.comparesNamed (f : Format) (named : List (BitVec k)) (m : Nat) : Bool :=
  opcodeTable.all fun r => r.format != f || r.comparesNamed named m

/-- Two low parts that no named value tells apart. -/
def AlikeFor (named : List (BitVec k)) (a b : BitVec k) : Prop := ∀ v ∈ named, a = v ↔ b = v

/-- A value that is not named stands for all of them. -/
theorem exists_alike (named : List (BitVec k)) {other : BitVec k} (hother : other ∉ named) (a : BitVec k) :
    ∃ b ∈ other :: named, AlikeFor named a b := by
  by_cases ha : a ∈ named
  · exact ⟨a, List.mem_cons_of_mem _ ha, fun _ _ => Iff.rfl⟩
  · refine ⟨other, List.mem_cons_self, fun v hv => ?_⟩
    exact iff_of_false (fun h => ha (h ▸ hv)) fun h => hother (h ▸ hv)

variable {named : List (BitVec k)} {f : Format} {r : Row} (head : BitVec m) (low : BitVec k)

theorem toNat_append_eq_mul_add : (head ++ low).toNat = head.toNat * 2 ^ k + low.toNat := by
  rw [BitVec.toNat_append, ← Nat.shiftLeft_add_eq_or_of_lt low.isLt, Nat.shiftLeft_eq]

theorem toNat_append_and_highMask : (head ++ low).toNat &&& (2 ^ m - 1) * 2 ^ k = head.toNat * 2 ^ k := by
  apply Nat.eq_of_testBit_eq
  intro i
  rw [Nat.testBit_and, Nat.testBit_mul_two_pow, Nat.testBit_mul_two_pow, Nat.testBit_two_pow_sub_one, BitVec.testBit_toNat,
    BitVec.testBit_toNat, BitVec.getLsbD_append]
  by_cases hi : i < k
  · simp [hi, hi.not_ge]
  · by_cases hm : i - k < m
    · simp [hi, not_lt.1 hi, hm]
    · simp [hi, hm, BitVec.getLsbD_of_ge head (i - k) (by omega)]

/-- The two kinds of row: by the high bits alone, or by the whole word. -/
theorem Row.matches_iff (hr : r.comparesNamed named m = true) :
    (∀ low : BitVec k, (head ++ low).toNat &&& r.mask = r.pattern ↔ head.toNat * 2 ^ k = r.pattern) ∨
    (BitVec.ofNat k r.pattern ∈ named ∧
      ∀ low : BitVec k, (head ++ low).toNat &&& r.mask = r.pattern ↔ head.toNat * 2 ^ k + low.toNat = r.pattern) := by
  simp only [Row.comparesNamed, Bool.or_eq_true, Bool.and_eq_true, beq_iff_eq, List.contains_iff_mem] at hr
  obtain ⟨hmask, -⟩ | ⟨hmask, hnamed⟩ := hr
  · exact .inl fun low => by rw [hmask, toNat_append_and_highMask]
  · refine .inr ⟨hnamed, fun low => ?_⟩
    rw [hmask, Nat.and_two_pow_sub_one_of_lt_two_pow (head ++ low).isLt, toNat_append_eq_mul_add]

/-- A row that matches has the word's high bits. -/
theorem Row.head_of_matches (hr : r.comparesNamed named m = true) (h : (head ++ low).toNat &&& r.mask = r.pattern) :
    r.pattern / 2 ^ k = head.toNat := by
  obtain hhigh | ⟨-, hwhole⟩ := Row.matches_iff head hr
  · rw [← (hhigh low).1 h, Nat.mul_div_cancel _ (Nat.two_pow_pos k)]
  · rw [← (hwhole low).1 h, Nat.mul_comm, Nat.mul_add_div (Nat.two_pow_pos k), Nat.div_eq_of_lt low.isLt, Nat.add_zero]

/-- A whole word matched has the pattern's low bits. -/
theorem eq_ofNat_of_mul_add_eq {low : BitVec k} {n p : Nat} (h : n * 2 ^ k + low.toNat = p) : low = BitVec.ofNat k p := by
  apply BitVec.eq_of_toNat_eq
  rw [BitVec.toNat_ofNat, ← h, Nat.mul_add_mod_self_right, Nat.mod_eq_of_lt low.isLt]

theorem Row.matches_of_alike {a b : BitVec k} (hr : r.comparesNamed named m = true) (hab : AlikeFor named a b)
    (h : (head ++ a).toNat &&& r.mask = r.pattern) : (head ++ b).toNat &&& r.mask = r.pattern := by
  obtain hhigh | ⟨hnamed, hwhole⟩ := Row.matches_iff head hr
  · exact (hhigh b).2 ((hhigh a).1 h)
  · have ha := (hwhole a).1 h
    have hb : b = a := ((hab _ hnamed).1 (eq_ofNat_of_mul_add_eq ha)).trans (eq_ofNat_of_mul_add_eq ha).symm
    exact (hwhole b).2 (hb ▸ ha)

theorem AlikeFor.symm {a b : BitVec k} (h : AlikeFor named a b) : AlikeFor named b a := fun v hv => (h v hv).symm

theorem Format.comparesNamed_row (hf : f.comparesNamed named m = true) (hmem : r ∈ opcodeTable) (hr : r.format = f) :
    r.comparesNamed named m = true := by
  have := List.all_eq_true.1 hf r hmem
  simpa [hr] using this

/-- Low parts that no row tells apart have the same first row. -/
theorem firstRow_of_alike {a b : BitVec k} (hf : f.comparesNamed named m = true) (hab : AlikeFor named a b) :
    firstRow f (head ++ a).toNat = firstRow f (head ++ b).toNat := by
  refine List.find?_congr fun r hmem => Bool.eq_iff_iff.2 ?_
  simp only [Bool.and_eq_true, decide_eq_true_eq, beq_iff_eq]
  refine and_congr_right fun hr => ?_
  have row := Format.comparesNamed_row hf hmem hr
  exact ⟨Row.matches_of_alike head row hab, Row.matches_of_alike head row hab.symm⟩

/-- The first row is a row of the format with the word's high bits. -/
theorem head_of_firstRow (hf : f.comparesNamed named m = true) (h : firstRow f (head ++ low).toNat = some r) :
    r ∈ opcodeTable ∧ r.format = f ∧ r.pattern / 2 ^ k = head.toNat := by
  have hmem := List.mem_of_find?_eq_some h
  have hmatch := List.find?_some h
  simp only [Bool.and_eq_true, decide_eq_true_eq, beq_iff_eq] at hmatch
  obtain ⟨hr, hbits⟩ := hmatch
  exact ⟨hmem, hr, Row.head_of_matches head low (Format.comparesNamed_row hf hmem hr) hbits⟩

end Rows

/-! ## `SEL` words -/

section Sel

/-- The offsets that a row of the table names: the registers of Expansion Region 2 and of the sound processor block. -/
def namedOffsets : List Word :=
  [exp2StatusOffset, exp2TtyOffset, exp2PostOffset, spuStatOffset, spuFifoOffset, spuCtrlOffset]

theorem sel_comparesNamed : Format.sel.comparesNamed namedOffsets 12 = true := by decide

theorem Region.code_of_ofCode {n : BitVec 4} {r : Region} (h : Region.ofCode n = some r) : r.code = n := by
  unfold Region.ofCode at h
  split at h <;> cases h <;> (apply BitVec.eq_of_toNat_eq; simp_all [Region.code])

/-- The word of a selector with its offset apart from the rest. -/
theorem Selector.word_eq_append (s : Selector) :
    s.word = (s.direction.code ++ s.width.code ++ s.region.code : BitVec 12) ++ s.offset := rfl

theorem sel_eq_append (word : BitVec 44) :
    word.extractLsb' 40 4 ++ word.extractLsb' 36 4 ++ word.extractLsb' 32 4 ++ word.extractLsb' 0 32 = word := by
  rw [BitVec.extractLsb'_append_extractLsb'_eq_extractLsb' (by rfl),
    BitVec.extractLsb'_append_extractLsb'_eq_extractLsb' (by rfl),
    BitVec.extractLsb'_append_extractLsb'_eq_extractLsb' (by rfl), BitVec.extractLsb'_eq_self]

/-- A word decodes to a selector only if it is the selector's word. -/
theorem eq_word_of_decodeSel {word : BitVec 44} {s : Selector} (h : decodeSel word = .ok s) : word = s.word := by
  unfold decodeSel at h
  split at h
  · cases h
  · next d w hdw =>
    obtain ⟨hd, hw⟩ := decodeAccess_ok hdw
    split at h
    · cases h
    · next r hr =>
      cases h
      rw [Selector.word, hd, hw, Region.code_of_ofCode hr, sel_eq_append]

/-- Whether a word decodes turns on its direction, width and region. -/
theorem decodeSel_append (head : BitVec 12) (low low' : Word) :
    decodeSel (head ++ low) = (decodeSel (head ++ low')).map fun s => { s with offset := low } := by
  have fields : ∀ a : Word, (head ++ a).extractLsb' 40 4 = head.extractLsb' 8 4 ∧
      (head ++ a).extractLsb' 36 4 = head.extractLsb' 4 4 ∧ (head ++ a).extractLsb' 32 4 = head.extractLsb' 0 4 :=
    fun a => ⟨append_part head a 8 4, append_part head a 4 4, append_part head a 0 4⟩
  obtain ⟨hd, hw, hr⟩ := fields low
  obtain ⟨hd', hw', hr'⟩ := fields low'
  rw [decodeSel, decodeSel, hd, hw, hr, hd', hw', hr', append_low]
  cases decodeAccess (head.extractLsb' 8 4) (head.extractLsb' 4 4) with
  | error e => rfl
  | ok dw =>
    obtain ⟨d, w⟩ := dw
    cases Region.ofCode (head.extractLsb' 0 4) <;> rfl

/-- The high bits of every `SEL` row decode. -/
theorem sel_heads_decode : (opcodeTable.all fun r => r.format != .sel ||
    (decodeSel (BitVec.ofNat 12 (r.pattern / 2 ^ 32) ++ (0 : Word))).isOk) = true := by decide

/-- A word that is refused has no row. -/
theorem firstRow_of_decodeSel_error {head : BitVec 12} {low : Word} {e : DecodeError}
    (h : decodeSel (head ++ low) = .error e) : firstRow .sel (head ++ low).toNat = none := by
  by_contra hsome
  obtain ⟨r, hr⟩ := Option.ne_none_iff_exists'.1 hsome
  obtain ⟨hmem, hformat, hhead⟩ := head_of_firstRow head low sel_comparesNamed hr
  have hok := List.all_eq_true.1 sel_heads_decode r hmem
  rw [hformat, hhead, BitVec.ofNat_toNat, BitVec.setWidth_eq] at hok
  rw [decodeSel_append head low 0] at h
  cases hd : decodeSel (head ++ (0 : Word)) with
  | error e => rw [hd] at hok; cases hok
  | ok s => rw [hd] at h; cases h

/-- What a row can tell of an offset is what the decoder asks of it. -/
theorem mnemonic_selectRead_of_alike {w : Width} {r : Region} {o o' : ReadOperands} (answer answer' : Word)
    (h : AlikeFor namedOffsets o.offset o'.offset) :
    (selectRead w r o answer).mnemonic = (selectRead w r o' answer').mnemonic := by
  cases r with
  | exp2 =>
    rw [selectRead, selectRead]
    simp only [h exp2StatusOffset (by decide)]
    split <;> cases w <;> rfl
  | spu =>
    rw [selectRead, selectRead]
    simp only [h spuStatOffset (by decide)]
    split <;> cases w <;> rfl
  | ram | bios | dma | invalid => cases w <;> rfl

theorem mnemonic_selectWrite_of_alike {w : Width} {r : Region} {o o' : WriteOperands}
    (h : AlikeFor namedOffsets o.offset o'.offset) : (selectWrite w r o).mnemonic = (selectWrite w r o').mnemonic := by
  cases r with
  | exp2 =>
    rw [selectWrite, selectWrite]
    simp only [h exp2TtyOffset (by decide), h exp2PostOffset (by decide)]
    split
    · cases w <;> rfl
    · split <;> cases w <;> rfl
  | spu =>
    rw [selectWrite, selectWrite]
    simp only [h spuFifoOffset (by decide), h spuCtrlOffset (by decide)]
    split
    · cases w <;> rfl
    · split <;> cases w <;> rfl
  | ram | bios | dma | invalid => cases w <;> rfl

theorem mnemonic_instr_of_alike (s : Selector) {offset : Word} (cpu bus wdata answer : Word)
    (h : AlikeFor namedOffsets s.offset offset) :
    (s.instr cpu bus wdata answer).mnemonic = (Selector.instr { s with offset } 0 0 0 0).mnemonic := by
  obtain ⟨d, w, r, o⟩ := s
  cases d with
  | read => exact mnemonic_selectRead_of_alike (o := ⟨o, cpu, bus⟩) (o' := ⟨offset, 0, 0⟩) answer 0 h
  | write => exact mnemonic_selectWrite_of_alike (o := ⟨o, cpu, bus, wdata⟩) (o' := ⟨offset, 0, 0, 0⟩) h

/-- The words that stand for all, each evaluated: every direction, width and region, with offset 0 and with each named offset. -/
theorem firstRow_named {d : Direction} {w : Width} {r : Region} {offset : Word} (h : offset ∈ 0 :: namedOffsets) :
    (firstRow .sel (Selector.word ⟨d, w, r, offset⟩).toNat).map Row.mnemonic =
      some (Selector.instr ⟨d, w, r, offset⟩ 0 0 0 0).mnemonic := by
  simp only [namedOffsets, List.mem_cons, List.not_mem_nil, or_false] at h
  obtain rfl | rfl | rfl | rfl | rfl | rfl | rfl := h <;> cases d <;> cases w <;> cases r <;> rfl

theorem firstRow_of_decodeSel_ok {word : BitVec 44} {s : Selector} (h : decodeSel word = .ok s)
    (cpu bus wdata answer : Word) :
    (firstRow .sel word.toNat).map Row.mnemonic = some (s.instr cpu bus wdata answer).mnemonic := by
  obtain ⟨offset, hnamed, halike⟩ := exists_alike namedOffsets (other := 0) (by decide) s.offset
  calc (firstRow .sel word.toNat).map Row.mnemonic
      = (firstRow .sel (Selector.word { s with offset }).toNat).map Row.mnemonic := by
        rw [eq_word_of_decodeSel h, Selector.word_eq_append, firstRow_of_alike _ sel_comparesNamed halike]
        rfl
    _ = some (Selector.instr { s with offset } 0 0 0 0).mnemonic := firstRow_named hnamed
    _ = some (s.instr cpu bus wdata answer).mnemonic := by rw [mnemonic_instr_of_alike s cpu bus wdata answer halike]

end Sel

/-! ## `XSEL` words -/

section Xsel

/-- The input bytes that a row of the table names. -/
def namedInputs : List Byte := [cmdSelect, cmdPoll]

theorem xsel_comparesNamed : Format.xsel.comparesNamed namedInputs 4 = true := by decide

/-- The high bits of every `XSEL` row are the code of a state. -/
theorem xsel_heads_decode : (opcodeTable.all fun r => r.format != .xsel ||
    (TransferState.ofCode (r.pattern / 2 ^ 8)).isSome) = true := by decide

theorem mnemonic_selectTransfer_of_alike {t : TransferState} {input input' : Byte} (pointer pointer' : Position)
    (h : AlikeFor namedInputs input input') :
    (selectTransfer t input pointer).mnemonic = (selectTransfer t input' pointer').mnemonic := by
  cases t with
  | idle =>
    rw [selectTransfer, selectTransfer]
    simp only [h cmdSelect (by decide)]
    split <;> rfl
  | ready =>
    rw [selectTransfer, selectTransfer]
    simp only [h cmdPoll (by decide)]
    split <;> rfl
  | idMsb | buttonsLsb | buttonsMsb | deltaX | deltaY => rfl

/-- The words that stand for all: each state with input 0 and with each named input. -/
theorem firstRow_namedInput {t : TransferState} {input : Byte} (h : input ∈ 0 :: namedInputs) :
    (firstRow .xsel (xselWord t input).toNat).map Row.mnemonic = some (selectTransfer t input default).mnemonic := by
  simp only [namedInputs, List.mem_cons, List.not_mem_nil, or_false] at h
  obtain rfl | rfl | rfl := h <;> cases t <;> rfl

theorem firstRow_xselWord (t : TransferState) (input : Byte) (pointer : Position) :
    (firstRow .xsel (xselWord t input).toNat).map Row.mnemonic = some (selectTransfer t input pointer).mnemonic := by
  obtain ⟨input', hnamed, halike⟩ := exists_alike namedInputs (other := 0) (by decide) input
  rw [mnemonic_selectTransfer_of_alike pointer default halike, ← firstRow_namedInput hnamed]
  exact congrArg (Option.map Row.mnemonic) (firstRow_of_alike (BitVec.ofNat 4 t.code) xsel_comparesNamed halike)

/-- A state code that is no state's has no row. -/
theorem firstRow_of_reserved_state {head : BitVec 4} {input : Byte} (h : TransferState.ofCode head.toNat = none) :
    firstRow .xsel (head ++ input).toNat = none := by
  by_contra hsome
  obtain ⟨r, hr⟩ := Option.ne_none_iff_exists'.1 hsome
  obtain ⟨hmem, hformat, hhead⟩ := head_of_firstRow head input xsel_comparesNamed hr
  have hok := List.all_eq_true.1 xsel_heads_decode r hmem
  rw [hformat, hhead, h] at hok
  cases hok

end Xsel

end Sys2Proof

namespace Sys2Proof.Proofs

theorem selWord_decodes_to_firstRow (c : Config) (t : TransferState) (word : BitVec 44) (cpu bus wdata answer : Word) :
    (firstRow .sel word.toNat).map Row.mnemonic =
      (decoded (decode c t (.sel word cpu bus wdata answer))).map Instr.mnemonic := by
  rw [decode]
  cases h : decodeSel word with
  | ok s => exact firstRow_of_decodeSel_ok h cpu bus wdata answer
  | error e =>
    have hword : word = word.extractLsb' 32 12 ++ word.extractLsb' 0 32 := by
      rw [BitVec.extractLsb'_append_extractLsb'_eq_extractLsb' (by rfl), BitVec.extractLsb'_eq_self]
    rw [hword] at h
    rw [hword, firstRow_of_decodeSel_error h]
    rfl

theorem xselWord_decodes_to_firstRow (word : BitVec 12) (pointer : Position) :
    (firstRow .xsel word.toNat).map Row.mnemonic = (decoded (decodeXsel word pointer)).map Instr.mnemonic := by
  have hword : word = word.extractLsb' 8 4 ++ word.extractLsb' 0 8 := by
    rw [BitVec.extractLsb'_append_extractLsb'_eq_extractLsb' (by rfl), BitVec.extractLsb'_eq_self]
  rw [decodeXsel]
  cases h : TransferState.ofCode (word.extractLsb' 8 4).toNat with
  | none =>
    rw [hword, firstRow_of_reserved_state h]
    rfl
  | some t =>
    have hstate : word.extractLsb' 8 4 = BitVec.ofNat 4 t.code := by
      rw [← TransferState.ofCode_eq_some h, BitVec.ofNat_toNat, BitVec.setWidth_eq]
    have hxsel : word = xselWord t (word.extractLsb' 0 8) := by rw [xselWord, ← hstate, ← hword]
    exact (congrArg (fun w => (firstRow .xsel w.toNat).map Row.mnemonic) hxsel).trans (firstRow_xselWord t _ pointer)

/-- Settles O4: a word that decodes has the row of the word that stands for it, and the high bits of a row always decode. -/
theorem theDecoderTakesTheFirstMatchingRow : Obligations.TheDecoderTakesTheFirstMatchingRow :=
  ⟨selWord_decodes_to_firstRow, xselWord_decodes_to_firstRow⟩

end Sys2Proof.Proofs
end

section
/-! PROOF. The statements of 47_periph_control.md: reset (R230), button updates (R232 to R234) and the capability queries (R236,
R237). -/

namespace Sys2Proof

/-- A button command's word as its command's pattern, the pressed bit and the code (30 R84). -/
theorem pcmdWord_buttonArg_eq_add (cmd : BitVec 4) (code : Byte) (pressed : Bool) :
    pcmdWord cmd (buttonArg code pressed) = pcmdWord cmd 0 + (if pressed then 0x100 else 0) + code.setWidth 16 := by
  have hcmd := cmd.isLt
  have hcode := code.isLt
  apply BitVec.eq_of_toNat_eq
  rw [pcmdWord, buttonArg, pcmdWord, toNat_append_eq_mul_add, toNat_append_eq_mul_add, toNat_append_eq_mul_add,
    BitVec.toNat_add, BitVec.toNat_add, toNat_append_eq_mul_add, BitVec.toNat_setWidth]
  cases pressed <;> simp <;> omega

namespace Config

variable {c : Config} {n : Nat}

/-- 00 R8.8: every identity has a bit. -/
theorem exists_buttonBit (hc : c.wf = true) (hn : n < c.buttonCount) : ∃ bit, c.buttonBit[n]? = some bit := by
  simp only [Config.wf, Config.buttonsWf, Bool.and_eq_true, beq_iff_eq] at hc
  have hlength : c.buttonBit.length = c.buttonCount := by tauto
  exact ⟨_, List.getElem?_eq_getElem (hlength.symm ▸ hn)⟩

/-- 00 R8.8: every code below the count names an identity. -/
theorem exists_buttonCode (hc : c.wf = true) (hn : n < c.buttonCount) :
    ∃ identity < c.buttonCount, c.buttonCode[n]? = some identity := by
  simp only [Config.wf, Config.buttonsWf, Bool.and_eq_true, beq_iff_eq, List.all_eq_true, decide_eq_true_eq] at hc
  have hlength : c.buttonCode.length = c.buttonCount := by tauto
  have hrange : ∀ i ∈ c.buttonCode, i < c.buttonCount := by tauto
  exact ⟨_, hrange _ (List.getElem_mem (hlength.symm ▸ hn)), List.getElem?_eq_getElem (hlength.symm ▸ hn)⟩

end Config

namespace Machine

open Sys2Proof.Statements

variable {s : State} {identity bit : Nat}

theorem updateButton_of_bit (hbit : s.config.buttonBit[identity]? = some bit) (pressed : Bool) :
    updateButton identity pressed s =
      .next (returning { s with buttonState := setButtonBit s.buttonState bit pressed } .nothing) := by
  rw [updateButton, hbit]
  rfl

theorem execSetbtnc_of_identity {code : Byte} (hcode : code.toNat < s.config.buttonCount)
    (hidentity : s.config.buttonCode[code.toNat]? = some identity) (pressed : Bool) :
    execSetbtnc code pressed s = updateButton identity pressed s := by
  rw [execSetbtnc, if_pos hcode, hidentity]

/-- Setting a released button's bit again after clearing it gives the mask back (90 C8). -/
theorem setButtonBit_released_pressed {mask : BitVec 16} (hreleased : mask.getLsbD bit = true) :
    setButtonBit (setButtonBit mask bit true) bit false = mask := by
  apply BitVec.eq_of_getLsbD_eq
  intro k hk
  rw [getLsbD_setButtonBit _ _ _ k hk, getLsbD_setButtonBit _ _ _ k hk]
  by_cases h : k = bit
  · rw [if_pos h, h, hreleased]; rfl
  · rw [if_neg h, if_neg h]

end Machine

end Sys2Proof

namespace Sys2Proof.Proofs

open Sys2Proof.Machine Sys2Proof.Statements

/-- Settles O50: a defined identity has a bit, and the update changes that bit of the mask. -/
theorem aButtonUpdateChangesItsBitOnly : Obligations.AButtonUpdateChangesItsBitOnly := by
  constructor
  · intro c t identity pressed stream p hid
    have hword := pcmdWord_buttonArg_eq_add 2 identity pressed
    exact hword ▸ decodePcmd_setbtn_word hid pressed
  · intro s identity pressed hc hid
    obtain ⟨bit, hbit⟩ := Config.exists_buttonBit hc hid
    exact ⟨bit, _, hbit, fun k hk => getLsbD_setButtonBit _ _ _ k hk, updateButton_of_bit hbit pressed⟩

/-- Settles O51: a code in range is the update of the identity the table gives it, any other takes the branch that does nothing. -/
theorem aButtonCodeIsItsIdentityOrIsIgnored : Obligations.AButtonCodeIsItsIdentityOrIsIgnored := by
  constructor
  · intro c t code pressed stream p
    have hword := pcmdWord_buttonArg_eq_add 3 code pressed
    exact hword ▸ decodePcmd_setbtnc_word code pressed
  · intro s code pressed
    constructor
    · intro hc hcode
      obtain ⟨identity, hcount, hidentity⟩ := Config.exists_buttonCode hc hcode
      obtain ⟨bit, hbit⟩ := Config.exists_buttonBit hc hcount
      have hupdate := execSetbtnc_of_identity hcode hidentity pressed
      refine ⟨identity, bit, _, hidentity, hbit, fun k hk => getLsbD_setButtonBit _ _ _ k hk,
        hupdate.trans (updateButton_of_bit hbit pressed), ?_⟩
      rintro id rfl
      exact hupdate
    · intro hcode
      exact if_neg hcode.not_gt

/-- Settles O52: pressing clears the bit, and releasing sets the same bit again. -/
theorem pressThenReleaseIsARoundTrip : Obligations.PressThenReleaseIsARoundTrip := by
  intro s t u identity bit hc hbit hreleased hpress hrelease
  obtain ⟨_, hpressed, rfl⟩ := updateButton_next hpress
  obtain ⟨_, hset, rfl⟩ := updateButton_next hrelease
  cases hbit.symm.trans hpressed
  cases hbit.symm.trans hset
  have hrange : bit < 16 := by
    by_contra h
    rw [BitVec.getLsbD_of_ge _ _ (not_lt.1 h)] at hreleased
    cases hreleased
  refine ⟨?_, setButtonBit_released_pressed hreleased⟩
  exact (getLsbD_setButtonBit _ _ _ bit hrange).trans (if_pos rfl)

/-- Settles O49: command 1 with no other bit set, and a change of `transfer_state` alone. -/
theorem peripheralResetReturnsToIdleOnly : Obligations.PeripheralResetReturnsToIdleOnly :=
  ⟨fun _ _ _ _ => rfl, fun _ => rfl⟩

/-- Settles O53: commands 6 and 7 with no other bit set, and a result alone. -/
theorem capabilityQueriesReportConstants : Obligations.CapabilityQueriesReportConstants :=
  ⟨fun _ _ _ _ => rfl, fun _ _ _ _ => rfl, fun _ => ⟨rfl, rfl⟩⟩

end Sys2Proof.Proofs
end

section
/-! PROOF. The statements of 60_exceptions.md, 70_reset_and_hazards.md and 10_state.md that are left: the order of the checks
(R279), the gate of block BUS (R311), construction (R300, R301) and its invariant; then the model's choices for a full TTY buffer
(log 17) and for an answer outside the coordinates' width (log 6), and the spec's written-out words (95 section 2.1). -/

namespace Sys2Proof.Machine

open Sys2Proof.Statements

variable {s : State} {i : Instr} {r : Request}

/-! ## The checks before an instruction (O11) -/

theorem runRequest_illFormed {run : Instr → State → Effect} (hc : s.config.wf = false) :
    runRequest run r s = .refused .illFormedConfig := by
  rw [runRequest, if_neg (by rw [hc]; decide)]

theorem runRequest_transaction {run : Instr → State → Effect} (hc : s.config.wf = true) (hr : r.isTransaction = true) :
    runRequest run r s = whenReady s (runDecoded run (decode s.config s.transferState r) s) := by
  rw [runRequest, if_pos hc, gateRequest, if_pos hr]

/-- The gate is open for a transaction on a ready bus, and for every other request. -/
theorem gateRequest_open (h : r.isTransaction = true → Ready s) (k : Effect) : gateRequest r s k = k := by
  unfold gateRequest
  split
  · next hr => exact whenReady_ready (h hr).1 (h hr).2
  · rfl

/-! ## The gate of block BUS (O15, O60) -/

/-- Every operation of block BUS needs at the least a bus that has not failed (70 R311). -/
theorem exec_of_busFailed (hi : OnBus i) (hf : s.busFailed = true) : exec i s = .refused .busFailed := by
  obtain hsel | hhcmd := hi
  · obtain ⟨k, hk⟩ := exec_transaction_isGated hsel s
    rw [hk, whenReady_failed hf]
  · cases i with
    | loadbios | bload => exact whenAlive_failed hf
    | bsave => exact whenReady_failed hf
    | _ => cases hhcmd

theorem exec_transaction_of_unusable (hi : (tableWord i).1 = .sel) (hf : s.busFailed = false) (hu : s.busUsable = false) :
    exec i s = .refused .busNotUsable := by
  obtain ⟨k, hk⟩ := exec_transaction_isGated hi s
  rw [hk, whenReady_unusable hf hu]

/-! ## A full TTY buffer (O29) -/

theorem exec_of_mem_ttyWrites {o : WriteOperands} (hi : i ∈ [Instr.wrExp2TtyB o, .wrExp2TtyH o, .wrExp2TtyW o]) :
    exec i s = ttyWrite o s := by
  simp only [List.mem_cons, List.not_mem_nil, or_false] at hi
  obtain rfl | rfl | rfl := hi <;> rfl

theorem ttyHasRoom_full {cap : Nat} (hcap : s.config.ttyBufCap = some cap) (hfull : cap ≤ s.ttyLineBuffer.length) :
    ttyHasRoom s = false := by
  rw [← Bool.not_eq_true, ttyHasRoom_iff]
  exact fun h => hfull.not_gt (h cap hcap)

/-! ## An answer outside the width (O44) -/

theorem toCoordinate_of_dvd_sub {c : Config} {x y : Int} (h : (2 ^ c.posBits : Int) ∣ x - y) :
    c.toCoordinate x = c.toCoordinate y := by
  rw [Config.toCoordinate, Config.toCoordinate, Int.bmod_eq_bmod_iff_bmod_sub_eq_zero]
  exact Int.bmod_eq_zero_of_dvd (by exact_mod_cast h)

/-! ## Construction (O12, O60) -/

theorem construct_inv {c : Config} (hc : c.wf = true) (p : Position) : (State.construct c p).Inv where
  config := hc
  ram := Memory.wf_empty _ _
  bios := Memory.wf_empty _ _
  ramDrawn k hk := by cases hk; exact Nat.zero_lt_two
  biosDrawn k hk := by cases hk; exact Nat.one_lt_two
  biosKnown hu := by cases hu
  baselineX := coordinateFits_toCoordinate (posBits_pos hc) _
  baselineY := coordinateFits_toCoordinate (posBits_pos hc) _

theorem default_wf : Config.default.wf = true := by decide

end Sys2Proof.Machine

namespace Sys2Proof.Proofs

open Sys2Proof.Machine Sys2Proof.Statements

/-- Settles O11: the parameters are looked at first, then the gate, then the word. -/
theorem aStepRefusesInTheOrderOfTheChecks : Obligations.AStepRefusesInTheOrderOfTheChecks := by
  constructor
  · intro s hidle
    rw [step, hidle]
  · intro s r rest hr
    rw [step_cons hr]
    refine ⟨?illFormed, ?failed, ?unusable, ?undecodable⟩
    case illFormed => exact fun hc => runRequest_illFormed hc
    case failed =>
      intro hc ht hf
      exact (runRequest_transaction (s := { s with requests := rest }) hc ht).trans (whenReady_failed hf)
    case unusable =>
      intro hc ht hf hu
      exact (runRequest_transaction (s := { s with requests := rest }) hc ht).trans (whenReady_unusable hf hu)
    case undecodable =>
      intro e hc hready hd
      rw [runRequest, if_pos hc, hd]
      exact gateRequest_open hready _

/-- Settles O15: the gate stands in the meaning of every operation it names. -/
theorem anUnusableOrFailedBusAcceptsNothing : Obligations.AnUnusableOrFailedBusAcceptsNothing := by
  refine ⟨fun i s hi hf => exec_of_busFailed hi hf, ?_⟩
  rintro i s (hsel | rfl) hf hu
  · exact exec_transaction_of_unusable hsel hf hu
  · exact whenReady_unusable hf hu

/-- Settles O60: the fields as constructed, the baseline by the answer's fitting, the refusals by the gate. -/
theorem constructionLeavesTheDocumentedState : Obligations.ConstructionLeavesTheDocumentedState := by
  intro c p hc hp
  obtain ⟨hx, hy⟩ := toCoordinate_of_positionFits hc hp
  exact ⟨rfl, rfl, rfl, rfl, ⟨0, fun _ => rfl⟩, ⟨1, fun _ => rfl⟩, rfl, hx, hy, rfl, rfl, rfl,
    fun _ hi => exec_transaction_of_unusable hi rfl rfl⟩

/-- Settles O12: reset is construction, and the default parameters are admitted. -/
theorem constructionMeetsTheInvariant : Obligations.ConstructionMeetsTheInvariant :=
  ⟨fun _ p hc => construct_inv hc p, construct_inv default_wf _⟩

/-- Settles O29: the byte is neither ignored nor a flush, so it would be appended, and there is no room. -/
theorem aFullBoundedTtyBufferRefuses : Obligations.AFullBoundedTtyBufferRefuses := by
  intro s o cap i hs hcap hfull hcr hlf hi
  exact (exec_of_mem_ttyWrites hi).trans (ttyWrite_full hs.1 hs.2 hcr hlf (ttyHasRoom_full hcap hfull))

/-- Settles O44: the sample takes nothing of an answer but its two residues. -/
theorem anAnswerOutsideTheWidthActsAsItsResidue : Obligations.AnAnswerOutsideTheWidthActsAsItsResidue := by
  intro s input p q _ _ hx hy
  have hsample : sampleMotion p s = sampleMotion q s := by
    rw [sampleMotion, sampleMotion, toCoordinate_of_dvd_sub hx, toCoordinate_of_dvd_sub hy]
  rw [exec_xferDeltax, exec_xferDeltax, hsample]

/-- Settles O1: each word is evaluated under the default parameters. -/
theorem writtenOutTransactionsDecodeAsListed : Obligations.WrittenOutTransactionsDecodeAsListed :=
  ⟨rfl, rfl, rfl, rfl, rfl, rfl, rfl⟩

end Sys2Proof.Proofs
end

section
/-! PROOF. The statements of 48_state_serialization.md: the snapshot and the restore of block PERIPH (R252 to R256) and of
block BUS (R258, R259). -/

namespace Sys2Proof

/-! ## Codes and lengths in a stream -/

theorem TransferState.ofCode_eq_none {n : Nat} (h : 6 < n) : TransferState.ofCode n = none := by
  unfold TransferState.ofCode
  split
  case h_8 => rfl
  all_goals omega

/-- A state's code fits the byte it is saved in. -/
theorem toNat_ofNat_code (t : TransferState) : (BitVec.ofNat 8 t.code).toNat = t.code := by cases t <;> rfl

theorem highByte_append_lowByte (v : BitVec 16) : highByte v ++ lowByte v = v := by
  rw [highByte, lowByte, BitVec.extractLsb'_append_extractLsb'_eq_extractLsb' (by rfl), BitVec.extractLsb'_eq_self]

/-- The bytes of a length are its digits in base 256. -/
theorem u32le_eq_map (n : Nat) : u32le n = (List.range 4).map fun k => BitVec.ofNat 8 (n / 256 ^ k) := by
  refine List.map_congr_left fun k hk => BitVec.eq_of_toNat_eq ?_
  have hk : k < 4 := List.mem_range.1 hk
  rw [BitVec.extractLsb'_toNat, BitVec.toNat_ofNat, BitVec.toNat_ofNat, Nat.shiftRight_eq_div_pow]
  interval_cases k <;> omega

theorem length_u32le (n : Nat) : (u32le n).length = 4 := rfl

/-- A length below 2^32 reads back from its four bytes (48 R258). -/
theorem littleEndian_u32le {n : Nat} (h : n < 2 ^ 32) : littleEndian (u32le n) = n := by
  rw [u32le_eq_map]
  simp only [List.range_succ, List.range_zero, List.nil_append, List.map_cons, List.map_nil,
    List.cons_append, littleEndian, BitVec.toNat_ofNat]
  omega

/-- The value of the first bytes of a list; a byte that is missing counts as 0. -/
theorem littleEndian_take (n : Nat) (l : List Byte) :
    littleEndian (l.take n) = ∑ k ∈ Finset.range n, (l.getD k 0).toNat * 256 ^ k := by
  induction n generalizing l with
  | zero => rfl
  | succ n ih =>
    cases l with
    | nil => simp [littleEndian]
    | cons b rest =>
      rw [Finset.sum_range_succ', List.take_succ_cons, littleEndian, ih, Finset.mul_sum, Nat.add_comm]
      congr 1
      · refine Finset.sum_congr rfl fun k _ => ?_
        rw [List.getD_cons_succ]; ring
      · simp

namespace Machine

open Sys2Proof.Statements

variable {s : State} {stream : Bytes} {low high dx dy code : Byte} {more : List Byte}

/-! ## Block PERIPH (48 R252 to R256) -/

theorem toList_take_five (hstream : Bytes.toList stream = low :: high :: dx :: dy :: code :: more) :
    Bytes.toList (Bytes.take 5 stream) = [low, high, dx, dy, code] := by
  rw [Bytes.toList_take, hstream]
  rfl

theorem exec_pload_restores {t : TransferState} (hstream : Bytes.toList stream = low :: high :: dx :: dy :: code :: more)
    (hcode : code.toNat = t.code) (apply : Bool) : exec (.pload apply stream) s = .next (returning { s with
      buttonState := if apply then high ++ low else s.buttonState
      deltaX := if apply then dx else s.deltaX
      deltaY := if apply then dy else s.deltaY
      transferState := t } (.restored 5)) := by
  have hstate : TransferState.ofCode code.toNat = some t := by rw [hcode, TransferState.ofCode_code]
  rw [exec, execPload, toList_take_five hstream]
  dsimp only
  rw [hstate]
  cases apply <;> rfl

theorem exec_pload_noSuchState (hstream : Bytes.toList stream = low :: high :: dx :: dy :: code :: more)
    (hcode : 6 < code.toNat) (apply : Bool) : exec (.pload apply stream) s = .refused .noSuchState := by
  rw [exec, execPload, toList_take_five hstream]
  dsimp only
  rw [TransferState.ofCode_eq_none hcode]

theorem exec_pload_short (hshort : (Bytes.toList stream).length < 5) (apply : Bool) :
    exec (.pload apply stream) s = .refused .shortStream := by
  have hlength : (Bytes.toList (Bytes.take 5 stream)).length < 5 := by
    rw [Bytes.toList_take, List.length_take]
    omega
  rw [exec, execPload]
  split
  · next hfive => rw [hfive] at hlength; exact absurd hlength (lt_irrefl 5)
  · rfl

/-- The result of an operation that does nothing else can be read off its next state. -/
theorem saved_of_returning {a b : Bytes}
    (h : (Host.Outcome.next (returning s (.saved a)) : Effect) = .next (returning s (.saved b))) : a = b := by
  simpa [returning] using h

/-! ## Block BUS (48 R258, R259) -/

theorem toList_busSnapshot (s : State) : Bytes.toList (busSnapshot s) =
    (List.range s.config.ramSize).map s.ram.read ++ (List.range s.config.biosSize).map s.bios.read ++
      u32le s.ttyLineBuffer.length ++ s.ttyLineBuffer := by
  simp [busSnapshot, Memory.toList_dump]

theorem exec_bsave_ready (hs : Ready s) : exec .bsave s = .next (returning s (.saved (busSnapshot s))) :=
  whenReady_ready hs.1 hs.2

/-- The length that a stream gives for the TTY buffer (48 R259). -/
def streamTtyLength (c : Config) (l : List Byte) : Nat :=
  ∑ k ∈ Finset.range 4, (l.getD (c.ramSize + c.biosSize + k) 0).toNat * 256 ^ k

/-- The state after a stream is restored. -/
def busRestored (stream : Bytes) (s : State) : State :=
  let tty := s.config.ramSize + s.config.biosSize + 4
  let n := streamTtyLength s.config (Bytes.toList stream)
  returning { s with
    ram := Memory.ofBytes (Bytes.take s.config.ramSize stream)
    bios := Memory.ofBytes (Bytes.take s.config.biosSize (Bytes.drop s.config.ramSize stream))
    ttyLineBuffer := ((Bytes.toList stream).drop tty).take n
    busUsable := true } (.restored (tty + n))

/-- The four bytes after the image are the length. -/
theorem streamTtyLength_eq (c : Config) (l : List Byte) :
    streamTtyLength c l = littleEndian ((l.drop (c.ramSize + c.biosSize)).take 4) := by
  rw [littleEndian_take]
  simp only [streamTtyLength, List.getD_eq_getElem?_getD, List.getElem?_drop]

/-- `BLOAD` needs its fields' bytes, as many as the fields themselves say. -/
theorem exec_bload_alive (hf : s.busFailed = false) : exec (.bload stream) s =
    if s.config.ramSize + s.config.biosSize + 4 + streamTtyLength s.config (Bytes.toList stream) ≤ (Bytes.toList stream).length
    then .next (busRestored stream s) else .refused .shortStream := by
  have hlength : littleEndian (Bytes.toList (Bytes.take 4 (splitSnapshot s.config stream).2.2)) =
      streamTtyLength s.config (Bytes.toList stream) := by
    rw [streamTtyLength_eq, splitSnapshot, Bytes.toList_take, Bytes.toList_drop, Bytes.toList_drop, List.drop_drop]
  have htty : ∀ n, Bytes.toList (Bytes.take n (Bytes.drop 4 (splitSnapshot s.config stream).2.2)) =
      ((Bytes.toList stream).drop (s.config.ramSize + s.config.biosSize + 4)).take n := by
    intro n
    rw [splitSnapshot, Bytes.toList_take, Bytes.toList_drop, Bytes.toList_drop, Bytes.toList_drop, List.drop_drop,
      List.drop_drop, Nat.add_assoc]
  refine (whenAlive_alive hf).trans ?_
  rw [hlength, htty, Bytes.size_eq_length]
  rfl

/-- A byte of the buffer laid out from a part of a list. -/
theorem getElem?_eq_read_ofBytes_part {l : List Byte} {part : Bytes} {start size a : Nat}
    (hpart : Bytes.toList part = (l.drop start).take size) (ha : a < size) (hlength : start + size ≤ l.length) :
    l[start + a]? = some ((Memory.ofBytes part).read a) := by
  have hin : a < (Bytes.toList part).length := by
    rw [hpart, List.length_take, List.length_drop]
    omega
  rw [← getElem?_toList_eq_read_ofBytes part hin, hpart, List.getElem?_take_of_lt ha, List.getElem?_drop]

section Snapshot

variable (s : State) {a : Nat}

theorem length_toList_busSnapshot : (Bytes.toList (busSnapshot s)).length =
    s.config.ramSize + s.config.biosSize + 4 + s.ttyLineBuffer.length := by
  simp [toList_busSnapshot, length_u32le, Nat.add_assoc]

theorem getElem?_busSnapshot_ram (ha : a < s.config.ramSize) :
    (Bytes.toList (busSnapshot s))[a]? = some (s.ram.read a) := by
  rw [toList_busSnapshot, List.append_assoc, List.append_assoc, List.getElem?_append_left (by simpa using ha)]
  simp [ha]

theorem getElem?_busSnapshot_bios (ha : a < s.config.biosSize) :
    (Bytes.toList (busSnapshot s))[s.config.ramSize + a]? = some (s.bios.read a) := by
  rw [toList_busSnapshot, List.append_assoc, List.append_assoc, List.getElem?_append_right (by simp),
    List.getElem?_append_left (by simpa using ha)]
  simp [ha]

/-- After RAM and the image, the length and the TTY buffer. -/
theorem drop_toList_busSnapshot : (Bytes.toList (busSnapshot s)).drop (s.config.ramSize + s.config.biosSize) =
    u32le s.ttyLineBuffer.length ++ s.ttyLineBuffer := by
  rw [toList_busSnapshot, List.append_assoc, List.drop_left' (by simp)]

theorem drop_toList_busSnapshot_tty :
    (Bytes.toList (busSnapshot s)).drop (s.config.ramSize + s.config.biosSize + 4) = s.ttyLineBuffer := by
  rw [← List.drop_drop, drop_toList_busSnapshot, List.drop_left' (length_u32le _)]

theorem streamTtyLength_busSnapshot (h : s.ttyLineBuffer.length < 2 ^ 32) :
    streamTtyLength s.config (Bytes.toList (busSnapshot s)) = s.ttyLineBuffer.length := by
  rw [streamTtyLength_eq, drop_toList_busSnapshot, List.take_left' (length_u32le _), littleEndian_u32le h]

end Snapshot

end Machine

end Sys2Proof

namespace Sys2Proof.Proofs

open Sys2Proof.Machine Sys2Proof.Statements

/-- Settles O54: command 4 with no other bit set, and the snapshot as the result. -/
theorem thePeripheralSnapshotHasFiveBytes : Obligations.ThePeripheralSnapshotHasFiveBytes :=
  ⟨fun _ _ _ _ => rfl, fun s => ⟨_, Bytes.toList_ofList (peripheralSnapshot s), rfl⟩⟩

/-- Settles O55: the first five bytes are taken apart, and only a state code above 6 or a missing byte refuses them. -/
theorem peripheralRestoreAppliesInputOnRequest : Obligations.PeripheralRestoreAppliesInputOnRequest := by
  refine ⟨fun _ _ _ _ => ⟨rfl, rfl⟩, ?restored, ?noSuchState, ?short⟩
  case restored =>
    intro s apply stream low high dx dy code more t hstream hcode
    exact exec_pload_restores hstream hcode apply
  case noSuchState =>
    intro s apply stream low high dx dy code more hstream hcode
    exact exec_pload_noSuchState hstream hcode apply
  case short =>
    intro s apply stream hshort
    exact exec_pload_short hshort apply

/-- Settles O56: the snapshot is the five bytes that the restore takes apart. -/
theorem peripheralSnapshotRoundTrip : Obligations.PeripheralSnapshotRoundTrip := by
  intro s u bytes apply hsave
  obtain rfl : Bytes.ofList (peripheralSnapshot s) = bytes := saved_of_returning hsave
  refine ⟨_, exec_pload_restores (Bytes.toList_ofList (peripheralSnapshot s)) (toNat_ofNat_code s.transferState) apply,
    rfl, ?_, rfl, rfl, rfl, rfl⟩
  exact congrArg (if apply = true then · else u.buttonState) (highByte_append_lowByte s.buttonState)

/-- Settles O57: the snapshot's four parts in order, the length in base 256. -/
theorem theBusSnapshotHoldsRamBiosAndTty : Obligations.TheBusSnapshotHoldsRamBiosAndTty := by
  refine ⟨fun _ _ _ _ => rfl, fun s hs => ⟨busSnapshot s, ?_, exec_bsave_ready hs⟩⟩
  rw [toList_busSnapshot, u32le_eq_map]

/-- Settles O58: one test of the length against what the stream itself says decides. -/
theorem theBusRestoreReadsTheSnapshot : Obligations.TheBusRestoreReadsTheSnapshot := by
  refine ⟨fun _ _ _ _ => rfl, ?_⟩
  rintro s stream l n hf rfl
  rw [exec_bload_alive hf]
  refine ⟨fun hshort => if_neg (by omega), fun hfixed hn => ?_⟩
  obtain rfl : n = streamTtyLength s.config (Bytes.toList stream) := hn
  refine ⟨fun hshort => if_neg (by omega), fun hlong => ⟨Memory.ofBytes (Bytes.take s.config.ramSize stream),
    Memory.ofBytes (Bytes.take s.config.biosSize (Bytes.drop s.config.ramSize stream)), ?ram, ?bios, if_pos hlong⟩⟩
  case ram =>
    intro a ha
    rw [← Nat.zero_add a, getElem?_eq_read_ofBytes_part (by rw [Bytes.toList_take, List.drop_zero]) ha (by omega),
      Nat.zero_add]
  case bios =>
    intro a ha
    exact getElem?_eq_read_ofBytes_part (by rw [Bytes.toList_take, Bytes.toList_drop]) ha (by omega)

/-- Settles O59: the snapshot has the bytes that its own length asks for, and each part stands where the restore reads it. -/
theorem busSnapshotRoundTrip : Obligations.BusSnapshotRoundTrip := by
  intro s u bytes hs hf hconfig htty hsave
  obtain rfl : busSnapshot s = bytes := saved_of_returning ((exec_bsave_ready hs).symm.trans hsave)
  have hlength := length_toList_busSnapshot s
  have restored := (theBusRestoreReadsTheSnapshot.2 u (busSnapshot s) _ s.ttyLineBuffer.length hf rfl).2
  rw [hconfig] at restored
  obtain ⟨ram, bios, hram, hbios, hexec⟩ :=
    (restored (by omega) (streamTtyLength_busSnapshot s htty).symm).2 hlength.ge
  refine ⟨_, hexec, rfl, ?tty, fun a ha => ?ram, fun a ha => ?bios, rfl, rfl, rfl, rfl, rfl, rfl, rfl⟩
  case tty =>
    exact (congrArg (List.take _) (drop_toList_busSnapshot_tty s)).trans List.take_length
  case ram => exact Option.some.inj ((hram a ha).symm.trans (getElem?_busSnapshot_ram s ha))
  case bios => exact Option.some.inj ((hbios a ha).symm.trans (getElem?_busSnapshot_bios s ha))

end Sys2Proof.Proofs
end
